-- ==== Sys2Proof/Word.lean ====
section
/-! DEFINITION. The words of the machine: 32-bit values (10_state.md R20, R23, R24), bytes (20_memory.md R51)
and register numbers (10_state.md R20). -/

namespace Sys2Proof

/-- A 32-bit value: a register, an address or an instruction word (10_state.md R20, R24; 30_encoding.md R80). -/
abbrev Word := BitVec 32

/-- The unit of addressing (20_memory.md R51). -/
abbrev Byte := BitVec 8

/-- A general register number, 0 to 15 (10_state.md R20). -/
abbrev Reg := Fin 16

end Sys2Proof
end

