-- ==== Sys2Proof/Config.lean ====
section
/-! DEFINITION. The parameters the spec leaves to the model's caller (00_scope.md R7; the list at the end of
92_eei_decisions.md). `Config` holds what is fixed for the machine, `Launch` what a run is started with
(70_reset_and_hazards.md R301, R303). No value of the machine's results is left open, so there is no free value. -/

namespace Sys2Proof

/-- DIV_OVERFLOW (00_scope.md R7; 41_regop_arith.md R155; decision D9). -/
inductive DivOverflow where
  | trap   -- raise DivideOverflow: the spec's decision
  | wrap   -- the quotient 2^31 modulo 2^32, remainder 0: the alternative the spec names
deriving DecidableEq, Repr

/-- The parameters fixed for the machine. The defaults are the spec's values; PAGE_SIZE is OPEN and its default
is the value the spec suggests (log 3, log 9). -/
structure Config where
  /-- PAGE_SIZE is `4 * 2 ^ pageSlotBits` bytes: a power of two, at least 4 (44_unit_builder.md R224), at most the
  whole instruction space (log 23). -/
  pageSlotBits : Fin 31 := 10
  /-- DIV_OVERFLOW, decided `trap` (41_regop_arith.md R155). -/
  divOverflow : DivOverflow := .trap
  /-- FLAGPACK_SHIFT, decided 0 (40_regop_move_shift_logic.md R116). -/
  flagpackShift : Fin 32 := 0
  /-- LINK_WRITE_WHEN_NOT_TAKEN, decided `false` (43_branch_ops.md R196). -/
  linkWriteWhenNotTaken : Bool := false
deriving DecidableEq, Repr

/-- PAGE_SIZE in bytes (44_unit_builder.md R224). -/
def Config.pageSize (cfg : Config) : Nat := 4 * 2 ^ cfg.pageSlotBits.val

/-- What a run is launched with (70_reset_and_hazards.md R301, R303; 20_memory.md R61). The defaults are the
model's choices for `State.reset` (DESIGN CHOICE, logs 2, 3, 4). -/
structure Launch where
  /-- RESET_PC, OPEN (10_state.md R40). -/
  resetPc : Word := 0x100
  /-- The fetch mapping, as the bytes of its words (20_memory.md R57). -/
  fetchMap : List Host.Cell := []
  /-- The data memory (20_memory.md R61). -/
  mem : List Host.Cell := []
  /-- The addresses the breakpoint lookup answers yes for, the end addresses E among them (R226, R303). -/
  breakpoints : List Word := []
  /-- MAX_INSNS of every invocation, OPEN (44_unit_builder.md R223). -/
  maxInsns : Nat := 512
  cfg : Config := {}
deriving DecidableEq, Repr

end Sys2Proof
end

