-- ==== Sys2Proof/Syntax.lean ====
section
/-! DEFINITION. The instructions as syntax: one constructor per row of spec/opcode_table.json (30_encoding.md R102),
with the fields that row gives an operand. Register fields, immediates and offsets have exactly the width of their
field (00_scope.md R16), so every term is an instruction some word encodes. The suffix Reg or Imm says the format of
a register-class row (R82, R83), Ind or Rel that of a branch-class row (R85, R86). -/

namespace Sys2Proof

/-- The instructions, in the opcode table's order. `a`, `b`, `c` are register numbers, `v` the sign-extension bit of
an immediate, `imm` the 16-bit immediate, `off` the 20-bit byte offset or the 24-bit word offset (00_scope.md R16). -/
inductive Instr where
  | movReg (a : Reg) (c : Reg)                             -- MOV Ra, Rc (R114)
  | movH (a : Reg)                                         -- MOV Ra, H (R115)
  | movFlags (a : Reg)                                     -- MOV Ra, FLAGS (R116)
  | movImm (a : Reg) (v : Bool) (imm : BitVec 16)          -- MOV Ra, #n (R117)
  | movhi (a : Reg) (imm : BitVec 16)                      -- MOVHI Ra, #n (R118)
  | lslReg (a : Reg) (b : Reg) (c : Reg)                   -- LSL Ra, Rb, Rc (R120)
  | lslImm (a : Reg) (b : Reg) (v : Bool) (imm : BitVec 16) -- LSL Ra, Rb, #n (R120)
  | asrReg (a : Reg) (b : Reg) (c : Reg)                   -- ASR Ra, Rb, Rc (R121)
  | asrImm (a : Reg) (b : Reg) (v : Bool) (imm : BitVec 16) -- ASR Ra, Rb, #n (R121)
  | rorReg (a : Reg) (b : Reg) (c : Reg)                   -- ROR Ra, Rb, Rc (R122)
  | rorImm (a : Reg) (b : Reg) (v : Bool) (imm : BitVec 16) -- ROR Ra, Rb, #n (R122)
  | andReg (a : Reg) (b : Reg) (c : Reg)                   -- AND Ra, Rb, Rc (R123)
  | andImm (a : Reg) (b : Reg) (v : Bool) (imm : BitVec 16) -- AND Ra, Rb, #n (R123)
  | annReg (a : Reg) (b : Reg) (c : Reg)                   -- ANN Ra, Rb, Rc (R124)
  | annImm (a : Reg) (b : Reg) (v : Bool) (imm : BitVec 16) -- ANN Ra, Rb, #n (R124)
  | iorReg (a : Reg) (b : Reg) (c : Reg)                   -- IOR Ra, Rb, Rc (R125)
  | iorImm (a : Reg) (b : Reg) (v : Bool) (imm : BitVec 16) -- IOR Ra, Rb, #n (R125)
  | xorReg (a : Reg) (b : Reg) (c : Reg)                   -- XOR Ra, Rb, Rc (R126)
  | xorImm (a : Reg) (b : Reg) (v : Bool) (imm : BitVec 16) -- XOR Ra, Rb, #n (R126)
  | addReg (a : Reg) (b : Reg) (c : Reg)                   -- ADD Ra, Rb, Rc (R140)
  | adcReg (a : Reg) (b : Reg) (c : Reg)                   -- ADC Ra, Rb, Rc (R142)
  | addImm (a : Reg) (b : Reg) (v : Bool) (imm : BitVec 16) -- ADD Ra, Rb, #n (R140)
  | adcImm (a : Reg) (b : Reg) (v : Bool) (imm : BitVec 16) -- ADC Ra, Rb, #n (R142)
  | subReg (a : Reg) (b : Reg) (c : Reg)                   -- SUB Ra, Rb, Rc (R144)
  | sbcReg (a : Reg) (b : Reg) (c : Reg)                   -- SBC Ra, Rb, Rc (R146)
  | subImm (a : Reg) (b : Reg) (v : Bool) (imm : BitVec 16) -- SUB Ra, Rb, #n (R144)
  | sbcImm (a : Reg) (b : Reg) (v : Bool) (imm : BitVec 16) -- SBC Ra, Rb, #n (R146)
  | mulReg (a : Reg) (b : Reg) (c : Reg)                   -- MUL Ra, Rb, Rc (R148)
  | umulReg (a : Reg) (b : Reg) (c : Reg)                  -- UMUL Ra, Rb, Rc (R149)
  | mulImm (a : Reg) (b : Reg) (v : Bool) (imm : BitVec 16) -- MUL Ra, Rb, #n (R148)
  | umulImm (a : Reg) (b : Reg) (v : Bool) (imm : BitVec 16) -- UMUL Ra, Rb, #n (R149)
  | divReg (a : Reg) (b : Reg) (c : Reg)                   -- DIV Ra, Rb, Rc (R150)
  | udivReg (a : Reg) (b : Reg) (c : Reg)                  -- UDIV Ra, Rb, Rc (R151)
  | divImm (a : Reg) (b : Reg) (v : Bool) (imm : BitVec 16) -- DIV Ra, Rb, #n (R150)
  | udivImm (a : Reg) (b : Reg) (v : Bool) (imm : BitVec 16) -- UDIV Ra, Rb, #n (R151)
  | fadReg                                                 -- FAD Ra, Rb, Rc (R160)
  | fadImm                                                 -- FAD Ra, Rb, #n (R160)
  | fsbReg                                                 -- FSB Ra, Rb, Rc (R161)
  | fsbImm                                                 -- FSB Ra, Rb, #n (R161)
  | fmlReg                                                 -- FML Ra, Rb, Rc (R162)
  | fmlImm                                                 -- FML Ra, Rb, #n (R162)
  | fdvReg                                                 -- FDV Ra, Rb, Rc (R163)
  | fdvImm                                                 -- FDV Ra, Rb, #n (R163)
  | ldw (a : Reg) (b : Reg) (off : BitVec 20)              -- LDW Ra, Rb, #n (R171)
  | ldb (a : Reg) (b : Reg) (off : BitVec 20)              -- LDB Ra, Rb, #n (R172)
  | stw (a : Reg) (b : Reg) (off : BitVec 20)              -- STW Ra, Rb, #n (R173)
  | stb (a : Reg) (b : Reg) (off : BitVec 20)              -- STB Ra, Rb, #n (R174)
  | bmiInd (c : Reg)                                       -- BMI Rc (R199)
  | beqInd (c : Reg)                                       -- BEQ Rc (R199)
  | bcsInd (c : Reg)                                       -- BCS Rc (R199)
  | bvsInd (c : Reg)                                       -- BVS Rc (R199)
  | blsInd (c : Reg)                                       -- BLS Rc (R199)
  | bltInd (c : Reg)                                       -- BLT Rc (R199)
  | bleInd (c : Reg)                                       -- BLE Rc (R199)
  | bInd (c : Reg)                                         -- B Rc (R199)
  | bplInd (c : Reg)                                       -- BPL Rc (R199)
  | bneInd (c : Reg)                                       -- BNE Rc (R199)
  | bccInd (c : Reg)                                       -- BCC Rc (R199)
  | bvcInd (c : Reg)                                       -- BVC Rc (R199)
  | bhiInd (c : Reg)                                       -- BHI Rc (R199)
  | bgeInd (c : Reg)                                       -- BGE Rc (R199)
  | bgtInd (c : Reg)                                       -- BGT Rc (R199)
  | bnvInd (c : Reg)                                       -- BNV Rc (R199)
  | blmiInd (c : Reg)                                      -- BLMI Rc (R200)
  | bleqInd (c : Reg)                                      -- BLEQ Rc (R200)
  | blcsInd (c : Reg)                                      -- BLCS Rc (R200)
  | blvsInd (c : Reg)                                      -- BLVS Rc (R200)
  | bllsInd (c : Reg)                                      -- BLLS Rc (R200)
  | blltInd (c : Reg)                                      -- BLLT Rc (R200)
  | blleInd (c : Reg)                                      -- BLLE Rc (R200)
  | blInd (c : Reg)                                        -- BL Rc (R200)
  | blplInd (c : Reg)                                      -- BLPL Rc (R200)
  | blneInd (c : Reg)                                      -- BLNE Rc (R200)
  | blccInd (c : Reg)                                      -- BLCC Rc (R200)
  | blvcInd (c : Reg)                                      -- BLVC Rc (R200)
  | blhiInd (c : Reg)                                      -- BLHI Rc (R200)
  | blgeInd (c : Reg)                                      -- BLGE Rc (R200)
  | blgtInd (c : Reg)                                      -- BLGT Rc (R200)
  | blnvInd (c : Reg)                                      -- BLNV Rc (R200)
  | bmiRel (off : BitVec 24)                               -- BMI label (R197)
  | beqRel (off : BitVec 24)                               -- BEQ label (R197)
  | bcsRel (off : BitVec 24)                               -- BCS label (R197)
  | bvsRel (off : BitVec 24)                               -- BVS label (R197)
  | blsRel (off : BitVec 24)                               -- BLS label (R197)
  | bltRel (off : BitVec 24)                               -- BLT label (R197)
  | bleRel (off : BitVec 24)                               -- BLE label (R197)
  | bRel (off : BitVec 24)                                 -- B label (R197)
  | bplRel (off : BitVec 24)                               -- BPL label (R197)
  | bneRel (off : BitVec 24)                               -- BNE label (R197)
  | bccRel (off : BitVec 24)                               -- BCC label (R197)
  | bvcRel (off : BitVec 24)                               -- BVC label (R197)
  | bhiRel (off : BitVec 24)                               -- BHI label (R197)
  | bgeRel (off : BitVec 24)                               -- BGE label (R197)
  | bgtRel (off : BitVec 24)                               -- BGT label (R197)
  | bnvRel (off : BitVec 24)                               -- BNV label (R197)
  | blmiRel (off : BitVec 24)                              -- BLMI label (R198)
  | bleqRel (off : BitVec 24)                              -- BLEQ label (R198)
  | blcsRel (off : BitVec 24)                              -- BLCS label (R198)
  | blvsRel (off : BitVec 24)                              -- BLVS label (R198)
  | bllsRel (off : BitVec 24)                              -- BLLS label (R198)
  | blltRel (off : BitVec 24)                              -- BLLT label (R198)
  | blleRel (off : BitVec 24)                              -- BLLE label (R198)
  | blRel (off : BitVec 24)                                -- BL label (R198)
  | blplRel (off : BitVec 24)                              -- BLPL label (R198)
  | blneRel (off : BitVec 24)                              -- BLNE label (R198)
  | blccRel (off : BitVec 24)                              -- BLCC label (R198)
  | blvcRel (off : BitVec 24)                              -- BLVC label (R198)
  | blhiRel (off : BitVec 24)                              -- BLHI label (R198)
  | blgeRel (off : BitVec 24)                              -- BLGE label (R198)
  | blgtRel (off : BitVec 24)                              -- BLGT label (R198)
  | blnvRel (off : BitVec 24)                              -- BLNV label (R198)
deriving DecidableEq, Repr

/-- The condition selectors `cond = w[26:24]`, in order from 0 (43_branch_ops.md R191). -/
inductive CondSel where
  | minus       -- 0: N
  | equal       -- 1: Z
  | carry       -- 2: C
  | overflow    -- 3: V
  | lowerSame   -- 4: C or Z
  | less        -- 5: N xor V
  | lessEqual   -- 6: (N xor V) or Z
  | always      -- 7: 1
deriving DecidableEq, Repr

/-- A branch condition: the invert flag `inv = w[27]` and the selector (30_encoding.md R94). -/
structure Cond where
  inv : Bool
  sel : CondSel
deriving DecidableEq, Repr

/-- The ALU opcode selectors `op = w[19:16]`, in order from 0 (30_encoding.md R90). -/
inductive AluSel where
  | mov | lsl | asr | ror | and | ann | ior | xor | add | sub | mul | div | fad | fsb | fml | fdv
deriving DecidableEq, Repr

end Sys2Proof
end

