-- ==== Sys2Proof/WellFormed.lean ====
section
/-! DEFINITION. What is well formed. Every term of `Instr` is: the type of each operand is exactly its field of the
word (00_scope.md R16), so no register number, immediate or offset can be out of range and there is nothing to check.
What can be ill formed is a WORD (a bit set that its row ignores, 30_encoding.md R95, R100) and a LAUNCH (a parameter
outside its contract, 00_scope.md R7, or a memory that is not in canonical form). -/

namespace Sys2Proof

/-- One line of the table of ignored bits: the words it is about (`w &&& mask = pattern`) and the bits they ignore. -/
structure IgnoredRow where
  mask : Word
  pattern : Word
  ignored : Word
deriving DecidableEq, Repr

/-- The table of 30_encoding.md R95, special cases before the general ones. A word of no line (IMM-format arithmetic,
memory class, pc-relative branch) ignores nothing. -/
def ignoredRows : List IgnoredRow :=
  [ ⟨0xE00F0000, 0x00000000, 0x10F0FFF0⟩,   -- MOV mode 0 and 1
    ⟨0xE00F0000, 0x20000000, 0x00F0FFFF⟩,   -- MOV mode 2 and 3
    ⟨0xE00F0000, 0x40000000, 0x00F00000⟩,   -- MOV mode 4 and 5
    ⟨0xE00F0000, 0x60000000, 0x10F00000⟩,   -- MOV mode 6 and 7
    ⟨0x800C0000, 0x000C0000, 0x3FF0FFFF⟩,   -- FAD, FSB, FML, FDV
    ⟨0xC0080000, 0x00000000, 0x3000FFF0⟩,   -- REG LSL, ASR, ROR, AND, ANN, IOR, XOR
    ⟨0xC0080000, 0x00080000, 0x1000FFF0⟩,   -- REG ADD to UDIV
    ⟨0xC0080000, 0x40000000, 0x20000000⟩,   -- IMM LSL, ASR, ROR, AND, ANN, IOR, XOR
    ⟨0xE0000000, 0xC0000000, 0x00FFFFF0⟩ ]  -- BRR

/-- The bits of `w` that its instruction ignores (30_encoding.md R95, decision D7). -/
def ignoredBits (w : Word) : Word :=
  match ignoredRows.find? (fun r => w &&& r.mask == r.pattern) with
  | some r => r.ignored
  | none => 0

/-- `w` has 0 in every bit it ignores, as an assembler writes it (30_encoding.md R95, R100). -/
def canonicalWord (w : Word) : Bool := w &&& ignoredBits w == 0

/-- The addresses of a list of cells rise strictly, the first above `low`. -/
def risesFrom (low : Nat) : List Host.Cell → Bool
  | [] => true
  | (a, _) :: rest => decide (low ≤ a) && risesFrom (a + 1) rest

/-- The canonical form of a memory: addresses strictly rising and inside the 32-bit space (20_memory.md R50). An
unlisted address is unmapped and reads as nothing (R61), so no listed byte can equal it. -/
def cellsWf (cells : List Host.Cell) : Bool :=
  risesFrom 0 cells && cells.all (fun cell => decide (cell.1 < 2 ^ 32))

/-- RESET_PC is a multiple of 4 (10_state.md R40). -/
def Launch.resetPcAligned (l : Launch) : Bool := l.resetPc &&& 3 == 0

/-- MAX_INSNS is at least 1 (44_unit_builder.md R223). -/
def Launch.capAtLeastOne (l : Launch) : Bool := decide (1 ≤ l.maxInsns)

/-- A launch inside its contract (00_scope.md R7; 70_reset_and_hazards.md R301). -/
def Launch.wf (l : Launch) : Bool :=
  l.resetPcAligned && l.capAtLeastOne && cellsWf l.fetchMap && cellsWf l.mem

end Sys2Proof
end

