-- ==== Sys2Proof/Decode.lean ====
section
/-! DEFINITION. The decoder, total on every word (30_encoding.md R102, R103), and the encoder, written from the same
tables. Bit fields, byte order and the numbering of selectors, conditions and registers are here and nowhere else. -/

namespace Sys2Proof

/-! ### Bit fields and byte order -/

/-- The field `w[lo+n-1:lo]` (00_scope.md R8). -/
def field (w : Word) (lo n : Nat) : BitVec n := w.extractLsb' lo n

/-- The bit `w[i]` (00_scope.md R8). -/
def bit (w : Word) (i : Nat) : Bool := w.getLsbD i

/-- A word with `f` at bits `lo` upward and 0 elsewhere. -/
def put {n : Nat} (f : BitVec n) (lo : Nat) : Word := f.setWidth 32 <<< lo

/-- The register a 4-bit field names (10_state.md R20). -/
def regOfBits (f : BitVec 4) : Reg := ⟨f.toNat, f.isLt⟩

/-- The 4-bit field that names a register. -/
def regBits (r : Reg) : BitVec 4 := BitVec.ofNat 4 r.val

/-- The little-endian assembly of four bytes, the one at the lowest address first (20_memory.md R52, R57). -/
def wordOfBytes (b0 b1 b2 b3 : Byte) : Word := put b0 0 ||| put b1 8 ||| put b2 16 ||| put b3 24

/-- Byte `k` of a word: the byte at address + k (20_memory.md R52). -/
def byteOf (w : Word) (k : Nat) : Byte := field w (8 * k) 8

/-! ### Numbering of the selectors -/

/-- The ALU opcode selector `w[19:16]` (30_encoding.md R90, decision D5). -/
def aluSelOfBits : BitVec 4 → AluSel
  | 0#4 => .mov | 1#4 => .lsl | 2#4 => .asr | 3#4 => .ror
  | 4#4 => .and | 5#4 => .ann | 6#4 => .ior | 7#4 => .xor
  | 8#4 => .add | 9#4 => .sub | 10#4 => .mul | 11#4 => .div
  | 12#4 => .fad | 13#4 => .fsb | 14#4 => .fml | _ => .fdv

/-- The selector's number (30_encoding.md R90). -/
def aluSelBits : AluSel → BitVec 4
  | .mov => 0 | .lsl => 1 | .asr => 2 | .ror => 3
  | .and => 4 | .ann => 5 | .ior => 6 | .xor => 7
  | .add => 8 | .sub => 9 | .mul => 10 | .div => 11
  | .fad => 12 | .fsb => 13 | .fml => 14 | .fdv => 15

/-- The condition selector `w[26:24]` (43_branch_ops.md R191). -/
def condSelOfBits : BitVec 3 → CondSel
  | 0#3 => .minus | 1#3 => .equal | 2#3 => .carry | 3#3 => .overflow
  | 4#3 => .lowerSame | 5#3 => .less | 6#3 => .lessEqual | _ => .always

/-- The condition selector's number (43_branch_ops.md R191). -/
def condSelBits : CondSel → BitVec 3
  | .minus => 0 | .equal => 1 | .carry => 2 | .overflow => 3
  | .lowerSame => 4 | .less => 5 | .lessEqual => 6 | .always => 7

/-! ### The sixteen conditions by suffix (30_encoding.md R100; 43_branch_ops.md R192) -/

/-- cc 0: taken when N. -/
def Cond.mi : Cond := ⟨false, .minus⟩
/-- cc 1: taken when Z. -/
def Cond.eq : Cond := ⟨false, .equal⟩
/-- cc 2: taken when C. -/
def Cond.cs : Cond := ⟨false, .carry⟩
/-- cc 3: taken when V. -/
def Cond.vs : Cond := ⟨false, .overflow⟩
/-- cc 4: taken when C or Z. -/
def Cond.ls : Cond := ⟨false, .lowerSame⟩
/-- cc 5: taken when N xor V. -/
def Cond.lt : Cond := ⟨false, .less⟩
/-- cc 6: taken when (N xor V) or Z. -/
def Cond.le : Cond := ⟨false, .lessEqual⟩
/-- cc 7: taken when always (no suffix). -/
def Cond.al : Cond := ⟨false, .always⟩
/-- cc 8: taken when not N. -/
def Cond.pl : Cond := ⟨true, .minus⟩
/-- cc 9: taken when not Z. -/
def Cond.ne : Cond := ⟨true, .equal⟩
/-- cc 10: taken when not C. -/
def Cond.cc : Cond := ⟨true, .carry⟩
/-- cc 11: taken when not V. -/
def Cond.vc : Cond := ⟨true, .overflow⟩
/-- cc 12: taken when not (C or Z). -/
def Cond.hi : Cond := ⟨true, .lowerSame⟩
/-- cc 13: taken when not (N xor V). -/
def Cond.ge : Cond := ⟨true, .less⟩
/-- cc 14: taken when not ((N xor V) or Z). -/
def Cond.gt : Cond := ⟨true, .lessEqual⟩
/-- cc 15: taken when never. -/
def Cond.nv : Cond := ⟨true, .always⟩

/-! ### The constructor a row's fields select -/

/-- `B<cc> Rc` (`link = false`) and `BL<cc> Rc` (`link = true`): the BRR rows (30_encoding.md R85, R102). -/
def branchInd (link : Bool) (cc : Cond) (c : Reg) : Instr :=
  match link, cc.inv, cc.sel with
  | false, false, .minus => .bmiInd c
  | false, false, .equal => .beqInd c
  | false, false, .carry => .bcsInd c
  | false, false, .overflow => .bvsInd c
  | false, false, .lowerSame => .blsInd c
  | false, false, .less => .bltInd c
  | false, false, .lessEqual => .bleInd c
  | false, false, .always => .bInd c
  | false, true, .minus => .bplInd c
  | false, true, .equal => .bneInd c
  | false, true, .carry => .bccInd c
  | false, true, .overflow => .bvcInd c
  | false, true, .lowerSame => .bhiInd c
  | false, true, .less => .bgeInd c
  | false, true, .lessEqual => .bgtInd c
  | false, true, .always => .bnvInd c
  | true, false, .minus => .blmiInd c
  | true, false, .equal => .bleqInd c
  | true, false, .carry => .blcsInd c
  | true, false, .overflow => .blvsInd c
  | true, false, .lowerSame => .bllsInd c
  | true, false, .less => .blltInd c
  | true, false, .lessEqual => .blleInd c
  | true, false, .always => .blInd c
  | true, true, .minus => .blplInd c
  | true, true, .equal => .blneInd c
  | true, true, .carry => .blccInd c
  | true, true, .overflow => .blvcInd c
  | true, true, .lowerSame => .blhiInd c
  | true, true, .less => .blgeInd c
  | true, true, .lessEqual => .blgtInd c
  | true, true, .always => .blnvInd c

/-- `B<cc> label` (`link = false`) and `BL<cc> label` (`link = true`): the BRI rows (30_encoding.md R86, R102). -/
def branchRel (link : Bool) (cc : Cond) (off : BitVec 24) : Instr :=
  match link, cc.inv, cc.sel with
  | false, false, .minus => .bmiRel off
  | false, false, .equal => .beqRel off
  | false, false, .carry => .bcsRel off
  | false, false, .overflow => .bvsRel off
  | false, false, .lowerSame => .blsRel off
  | false, false, .less => .bltRel off
  | false, false, .lessEqual => .bleRel off
  | false, false, .always => .bRel off
  | false, true, .minus => .bplRel off
  | false, true, .equal => .bneRel off
  | false, true, .carry => .bccRel off
  | false, true, .overflow => .bvcRel off
  | false, true, .lowerSame => .bhiRel off
  | false, true, .less => .bgeRel off
  | false, true, .lessEqual => .bgtRel off
  | false, true, .always => .bnvRel off
  | true, false, .minus => .blmiRel off
  | true, false, .equal => .bleqRel off
  | true, false, .carry => .blcsRel off
  | true, false, .overflow => .blvsRel off
  | true, false, .lowerSame => .bllsRel off
  | true, false, .less => .blltRel off
  | true, false, .lessEqual => .blleRel off
  | true, false, .always => .blRel off
  | true, true, .minus => .blplRel off
  | true, true, .equal => .blneRel off
  | true, true, .carry => .blccRel off
  | true, true, .overflow => .blvcRel off
  | true, true, .lowerSame => .blhiRel off
  | true, true, .less => .blgeRel off
  | true, true, .lessEqual => .blgtRel off
  | true, true, .always => .blnvRel off

/-- The REG rows: `u`, `v` choose among the rows of one selector (30_encoding.md R82, R92, R93). -/
def regForm (u v : Bool) (op : AluSel) (a b c : Reg) : Instr :=
  match op, u, v with
  | .mov, false, _ => .movReg a c
  | .mov, true, false => .movH a
  | .mov, true, true => .movFlags a
  | .lsl, _, _ => .lslReg a b c
  | .asr, _, _ => .asrReg a b c
  | .ror, _, _ => .rorReg a b c
  | .and, _, _ => .andReg a b c
  | .ann, _, _ => .annReg a b c
  | .ior, _, _ => .iorReg a b c
  | .xor, _, _ => .xorReg a b c
  | .add, false, _ => .addReg a b c
  | .add, true, _ => .adcReg a b c
  | .sub, false, _ => .subReg a b c
  | .sub, true, _ => .sbcReg a b c
  | .mul, false, _ => .mulReg a b c
  | .mul, true, _ => .umulReg a b c
  | .div, false, _ => .divReg a b c
  | .div, true, _ => .udivReg a b c
  | .fad, _, _ => .fadReg
  | .fsb, _, _ => .fsbReg
  | .fml, _, _ => .fmlReg
  | .fdv, _, _ => .fdvReg

/-- The IMM rows (30_encoding.md R83, R92, R93). -/
def immForm (u v : Bool) (op : AluSel) (a b : Reg) (imm : BitVec 16) : Instr :=
  match op, u with
  | .mov, false => .movImm a v imm
  | .mov, true => .movhi a imm
  | .lsl, _ => .lslImm a b v imm
  | .asr, _ => .asrImm a b v imm
  | .ror, _ => .rorImm a b v imm
  | .and, _ => .andImm a b v imm
  | .ann, _ => .annImm a b v imm
  | .ior, _ => .iorImm a b v imm
  | .xor, _ => .xorImm a b v imm
  | .add, false => .addImm a b v imm
  | .add, true => .adcImm a b v imm
  | .sub, false => .subImm a b v imm
  | .sub, true => .sbcImm a b v imm
  | .mul, false => .mulImm a b v imm
  | .mul, true => .umulImm a b v imm
  | .div, false => .divImm a b v imm
  | .div, true => .udivImm a b v imm
  | .fad, _ => .fadImm
  | .fsb, _ => .fsbImm
  | .fml, _ => .fmlImm
  | .fdv, _ => .fdvImm

/-- The memory rows: `u` says store, `v` says byte (30_encoding.md R84, R91, decision D6). -/
def memForm (u v : Bool) (a b : Reg) (off : BitVec 20) : Instr :=
  match u, v with
  | false, false => .ldw a b off
  | false, true => .ldb a b off
  | true, false => .stw a b off
  | true, true => .stb a b off

/-! ### Decoding -/

/-- `w` is a branch-class word: `w[31:30] = 11` (30_encoding.md R81; 43_branch_ops.md R201). -/
def isBranchWord (w : Word) : Bool := bit w 31 && bit w 30

/-- The condition of a branch-class word: `inv = w[27]`, `cond = w[26:24]` (30_encoding.md R94). -/
def condOfWord (w : Word) : Cond := ⟨bit w 27, condSelOfBits (field w 24 3)⟩

/-- The decode procedure (30_encoding.md R103): total on 32-bit words (R102). -/
def decodeWord (w : Word) : Instr :=
  let u := bit w 29
  let v := bit w 28
  let a := regOfBits (field w 24 4)
  let b := regOfBits (field w 20 4)
  let c := regOfBits (field w 0 4)
  let op := aluSelOfBits (field w 16 4)
  match bit w 31, bit w 30 with
  | false, false => regForm u v op a b c
  | false, true => immForm u v op a b (field w 0 16)
  | true, false => memForm u v a b (field w 0 20)
  | true, true => if u then branchRel v (condOfWord w) (field w 0 24) else branchInd v (condOfWord w) c

/-- Why a list of bytes holds no instruction. Every word decodes (30_encoding.md R97, R102), so the only reason is
that fewer than four bytes are left (R80). -/
inductive DecodeError where
  | tooShort
deriving DecidableEq, Repr

/-- The instruction at the head of a list of bytes, and the bytes after it (30_encoding.md R80; 20_memory.md R57). -/
def decode : List Byte → Except DecodeError (Instr × List Byte)
  | b0 :: b1 :: b2 :: b3 :: rest => .ok (decodeWord (wordOfBytes b0 b1 b2 b3), rest)
  | _ => .error .tooShort

/-- The instruction the decoder reads from the bits `w` of an instruction of `nbits` bits, the bits above them 0. -/
def decodeTableWord (nbits w : Nat) : Option Instr :=
  let word : Word := BitVec.ofNat 32 (w % 2 ^ nbits)
  match decode [byteOf word 0, byteOf word 1, byteOf word 2, byteOf word 3] with
  | .ok (i, []) => some i
  | _ => none

/-! ### Encoding (30_encoding.md R82 to R86, R100: 0 in every ignored bit) -/

/-- A REG-format word (30_encoding.md R82). -/
def regWord (u v : Bool) (op : AluSel) (a b c : Reg) : Word :=
  put (BitVec.ofBool u) 29 ||| put (BitVec.ofBool v) 28 ||| put (regBits a) 24 ||| put (regBits b) 20
    ||| put (aluSelBits op) 16 ||| put (regBits c) 0

/-- An IMM-format word (30_encoding.md R83). -/
def immWord (u v : Bool) (op : AluSel) (a b : Reg) (imm : BitVec 16) : Word :=
  put 1#1 30 ||| put (BitVec.ofBool u) 29 ||| put (BitVec.ofBool v) 28 ||| put (regBits a) 24 ||| put (regBits b) 20
    ||| put (aluSelBits op) 16 ||| put imm 0

/-- A MEM-format word (30_encoding.md R84). -/
def memWord (u v : Bool) (a b : Reg) (off : BitVec 20) : Word :=
  put 1#1 31 ||| put (BitVec.ofBool u) 29 ||| put (BitVec.ofBool v) 28 ||| put (regBits a) 24 ||| put (regBits b) 20
    ||| put off 0

/-- A BRR-format word (30_encoding.md R85). -/
def brrWord (link : Bool) (cc : Cond) (c : Reg) : Word :=
  put 1#1 31 ||| put 1#1 30 ||| put (BitVec.ofBool link) 28 ||| put (BitVec.ofBool cc.inv) 27
    ||| put (condSelBits cc.sel) 24 ||| put (regBits c) 0

/-- A BRI-format word (30_encoding.md R86). -/
def briWord (link : Bool) (cc : Cond) (off : BitVec 24) : Word :=
  put 1#1 31 ||| put 1#1 30 ||| put 1#1 29 ||| put (BitVec.ofBool link) 28 ||| put (BitVec.ofBool cc.inv) 27
    ||| put (condSelBits cc.sel) 24 ||| put off 0

/-- The word of an instruction (30_encoding.md R100). -/
def encodeWord : Instr → Word
  | .movReg a c => regWord false false .mov a 0 c
  | .movH a => regWord true false .mov a 0 0
  | .movFlags a => regWord true true .mov a 0 0
  | .movImm a v imm => immWord false v .mov a 0 imm
  | .movhi a imm => immWord true false .mov a 0 imm
  | .lslReg a b c => regWord false false .lsl a b c
  | .lslImm a b v imm => immWord false v .lsl a b imm
  | .asrReg a b c => regWord false false .asr a b c
  | .asrImm a b v imm => immWord false v .asr a b imm
  | .rorReg a b c => regWord false false .ror a b c
  | .rorImm a b v imm => immWord false v .ror a b imm
  | .andReg a b c => regWord false false .and a b c
  | .andImm a b v imm => immWord false v .and a b imm
  | .annReg a b c => regWord false false .ann a b c
  | .annImm a b v imm => immWord false v .ann a b imm
  | .iorReg a b c => regWord false false .ior a b c
  | .iorImm a b v imm => immWord false v .ior a b imm
  | .xorReg a b c => regWord false false .xor a b c
  | .xorImm a b v imm => immWord false v .xor a b imm
  | .addReg a b c => regWord false false .add a b c
  | .adcReg a b c => regWord true false .add a b c
  | .addImm a b v imm => immWord false v .add a b imm
  | .adcImm a b v imm => immWord true v .add a b imm
  | .subReg a b c => regWord false false .sub a b c
  | .sbcReg a b c => regWord true false .sub a b c
  | .subImm a b v imm => immWord false v .sub a b imm
  | .sbcImm a b v imm => immWord true v .sub a b imm
  | .mulReg a b c => regWord false false .mul a b c
  | .umulReg a b c => regWord true false .mul a b c
  | .mulImm a b v imm => immWord false v .mul a b imm
  | .umulImm a b v imm => immWord true v .mul a b imm
  | .divReg a b c => regWord false false .div a b c
  | .udivReg a b c => regWord true false .div a b c
  | .divImm a b v imm => immWord false v .div a b imm
  | .udivImm a b v imm => immWord true v .div a b imm
  | .fadReg => regWord false false .fad 0 0 0
  | .fadImm => immWord false false .fad 0 0 0
  | .fsbReg => regWord false false .fsb 0 0 0
  | .fsbImm => immWord false false .fsb 0 0 0
  | .fmlReg => regWord false false .fml 0 0 0
  | .fmlImm => immWord false false .fml 0 0 0
  | .fdvReg => regWord false false .fdv 0 0 0
  | .fdvImm => immWord false false .fdv 0 0 0
  | .ldw a b off => memWord false false a b off
  | .ldb a b off => memWord false true a b off
  | .stw a b off => memWord true false a b off
  | .stb a b off => memWord true true a b off
  | .bmiInd c => brrWord false .mi c
  | .beqInd c => brrWord false .eq c
  | .bcsInd c => brrWord false .cs c
  | .bvsInd c => brrWord false .vs c
  | .blsInd c => brrWord false .ls c
  | .bltInd c => brrWord false .lt c
  | .bleInd c => brrWord false .le c
  | .bInd c => brrWord false .al c
  | .bplInd c => brrWord false .pl c
  | .bneInd c => brrWord false .ne c
  | .bccInd c => brrWord false .cc c
  | .bvcInd c => brrWord false .vc c
  | .bhiInd c => brrWord false .hi c
  | .bgeInd c => brrWord false .ge c
  | .bgtInd c => brrWord false .gt c
  | .bnvInd c => brrWord false .nv c
  | .blmiInd c => brrWord true .mi c
  | .bleqInd c => brrWord true .eq c
  | .blcsInd c => brrWord true .cs c
  | .blvsInd c => brrWord true .vs c
  | .bllsInd c => brrWord true .ls c
  | .blltInd c => brrWord true .lt c
  | .blleInd c => brrWord true .le c
  | .blInd c => brrWord true .al c
  | .blplInd c => brrWord true .pl c
  | .blneInd c => brrWord true .ne c
  | .blccInd c => brrWord true .cc c
  | .blvcInd c => brrWord true .vc c
  | .blhiInd c => brrWord true .hi c
  | .blgeInd c => brrWord true .ge c
  | .blgtInd c => brrWord true .gt c
  | .blnvInd c => brrWord true .nv c
  | .bmiRel off => briWord false .mi off
  | .beqRel off => briWord false .eq off
  | .bcsRel off => briWord false .cs off
  | .bvsRel off => briWord false .vs off
  | .blsRel off => briWord false .ls off
  | .bltRel off => briWord false .lt off
  | .bleRel off => briWord false .le off
  | .bRel off => briWord false .al off
  | .bplRel off => briWord false .pl off
  | .bneRel off => briWord false .ne off
  | .bccRel off => briWord false .cc off
  | .bvcRel off => briWord false .vc off
  | .bhiRel off => briWord false .hi off
  | .bgeRel off => briWord false .ge off
  | .bgtRel off => briWord false .gt off
  | .bnvRel off => briWord false .nv off
  | .blmiRel off => briWord true .mi off
  | .bleqRel off => briWord true .eq off
  | .blcsRel off => briWord true .cs off
  | .blvsRel off => briWord true .vs off
  | .bllsRel off => briWord true .ls off
  | .blltRel off => briWord true .lt off
  | .blleRel off => briWord true .le off
  | .blRel off => briWord true .al off
  | .blplRel off => briWord true .pl off
  | .blneRel off => briWord true .ne off
  | .blccRel off => briWord true .cc off
  | .blvcRel off => briWord true .vc off
  | .blhiRel off => briWord true .hi off
  | .blgeRel off => briWord true .ge off
  | .blgtRel off => briWord true .gt off
  | .blnvRel off => briWord true .nv off

/-- The bytes of an instruction, lowest address first (20_memory.md R52, R57). -/
def encode (i : Instr) : List Byte :=
  let w := encodeWord i
  [byteOf w 0, byteOf w 1, byteOf w 2, byteOf w 3]

/-! ### The opcode map -/

/-- A row of the opcode map: it matches `w` when `w &&& mask = pattern` (30_encoding.md R102). -/
structure OpcodeRow where
  pattern : Word
  mask : Word
deriving DecidableEq, Repr

/-- The row of each constructor, as the tables of 30_encoding.md R102 print it. -/
def Instr.row : Instr → OpcodeRow
  | .movReg .. => ⟨0x00000000, 0xE00F0000⟩
  | .movH .. => ⟨0x20000000, 0xF00F0000⟩
  | .movFlags .. => ⟨0x30000000, 0xF00F0000⟩
  | .movImm .. => ⟨0x40000000, 0xE00F0000⟩
  | .movhi .. => ⟨0x60000000, 0xE00F0000⟩
  | .lslReg .. => ⟨0x00010000, 0xC00F0000⟩
  | .lslImm .. => ⟨0x40010000, 0xC00F0000⟩
  | .asrReg .. => ⟨0x00020000, 0xC00F0000⟩
  | .asrImm .. => ⟨0x40020000, 0xC00F0000⟩
  | .rorReg .. => ⟨0x00030000, 0xC00F0000⟩
  | .rorImm .. => ⟨0x40030000, 0xC00F0000⟩
  | .andReg .. => ⟨0x00040000, 0xC00F0000⟩
  | .andImm .. => ⟨0x40040000, 0xC00F0000⟩
  | .annReg .. => ⟨0x00050000, 0xC00F0000⟩
  | .annImm .. => ⟨0x40050000, 0xC00F0000⟩
  | .iorReg .. => ⟨0x00060000, 0xC00F0000⟩
  | .iorImm .. => ⟨0x40060000, 0xC00F0000⟩
  | .xorReg .. => ⟨0x00070000, 0xC00F0000⟩
  | .xorImm .. => ⟨0x40070000, 0xC00F0000⟩
  | .addReg .. => ⟨0x00080000, 0xE00F0000⟩
  | .adcReg .. => ⟨0x20080000, 0xE00F0000⟩
  | .addImm .. => ⟨0x40080000, 0xE00F0000⟩
  | .adcImm .. => ⟨0x60080000, 0xE00F0000⟩
  | .subReg .. => ⟨0x00090000, 0xE00F0000⟩
  | .sbcReg .. => ⟨0x20090000, 0xE00F0000⟩
  | .subImm .. => ⟨0x40090000, 0xE00F0000⟩
  | .sbcImm .. => ⟨0x60090000, 0xE00F0000⟩
  | .mulReg .. => ⟨0x000A0000, 0xE00F0000⟩
  | .umulReg .. => ⟨0x200A0000, 0xE00F0000⟩
  | .mulImm .. => ⟨0x400A0000, 0xE00F0000⟩
  | .umulImm .. => ⟨0x600A0000, 0xE00F0000⟩
  | .divReg .. => ⟨0x000B0000, 0xE00F0000⟩
  | .udivReg .. => ⟨0x200B0000, 0xE00F0000⟩
  | .divImm .. => ⟨0x400B0000, 0xE00F0000⟩
  | .udivImm .. => ⟨0x600B0000, 0xE00F0000⟩
  | .fadReg => ⟨0x000C0000, 0xC00F0000⟩
  | .fadImm => ⟨0x400C0000, 0xC00F0000⟩
  | .fsbReg => ⟨0x000D0000, 0xC00F0000⟩
  | .fsbImm => ⟨0x400D0000, 0xC00F0000⟩
  | .fmlReg => ⟨0x000E0000, 0xC00F0000⟩
  | .fmlImm => ⟨0x400E0000, 0xC00F0000⟩
  | .fdvReg => ⟨0x000F0000, 0xC00F0000⟩
  | .fdvImm => ⟨0x400F0000, 0xC00F0000⟩
  | .ldw .. => ⟨0x80000000, 0xF0000000⟩
  | .ldb .. => ⟨0x90000000, 0xF0000000⟩
  | .stw .. => ⟨0xA0000000, 0xF0000000⟩
  | .stb .. => ⟨0xB0000000, 0xF0000000⟩
  | .bmiInd .. => ⟨0xC0000000, 0xFF000000⟩
  | .beqInd .. => ⟨0xC1000000, 0xFF000000⟩
  | .bcsInd .. => ⟨0xC2000000, 0xFF000000⟩
  | .bvsInd .. => ⟨0xC3000000, 0xFF000000⟩
  | .blsInd .. => ⟨0xC4000000, 0xFF000000⟩
  | .bltInd .. => ⟨0xC5000000, 0xFF000000⟩
  | .bleInd .. => ⟨0xC6000000, 0xFF000000⟩
  | .bInd .. => ⟨0xC7000000, 0xFF000000⟩
  | .bplInd .. => ⟨0xC8000000, 0xFF000000⟩
  | .bneInd .. => ⟨0xC9000000, 0xFF000000⟩
  | .bccInd .. => ⟨0xCA000000, 0xFF000000⟩
  | .bvcInd .. => ⟨0xCB000000, 0xFF000000⟩
  | .bhiInd .. => ⟨0xCC000000, 0xFF000000⟩
  | .bgeInd .. => ⟨0xCD000000, 0xFF000000⟩
  | .bgtInd .. => ⟨0xCE000000, 0xFF000000⟩
  | .bnvInd .. => ⟨0xCF000000, 0xFF000000⟩
  | .blmiInd .. => ⟨0xD0000000, 0xFF000000⟩
  | .bleqInd .. => ⟨0xD1000000, 0xFF000000⟩
  | .blcsInd .. => ⟨0xD2000000, 0xFF000000⟩
  | .blvsInd .. => ⟨0xD3000000, 0xFF000000⟩
  | .bllsInd .. => ⟨0xD4000000, 0xFF000000⟩
  | .blltInd .. => ⟨0xD5000000, 0xFF000000⟩
  | .blleInd .. => ⟨0xD6000000, 0xFF000000⟩
  | .blInd .. => ⟨0xD7000000, 0xFF000000⟩
  | .blplInd .. => ⟨0xD8000000, 0xFF000000⟩
  | .blneInd .. => ⟨0xD9000000, 0xFF000000⟩
  | .blccInd .. => ⟨0xDA000000, 0xFF000000⟩
  | .blvcInd .. => ⟨0xDB000000, 0xFF000000⟩
  | .blhiInd .. => ⟨0xDC000000, 0xFF000000⟩
  | .blgeInd .. => ⟨0xDD000000, 0xFF000000⟩
  | .blgtInd .. => ⟨0xDE000000, 0xFF000000⟩
  | .blnvInd .. => ⟨0xDF000000, 0xFF000000⟩
  | .bmiRel .. => ⟨0xE0000000, 0xFF000000⟩
  | .beqRel .. => ⟨0xE1000000, 0xFF000000⟩
  | .bcsRel .. => ⟨0xE2000000, 0xFF000000⟩
  | .bvsRel .. => ⟨0xE3000000, 0xFF000000⟩
  | .blsRel .. => ⟨0xE4000000, 0xFF000000⟩
  | .bltRel .. => ⟨0xE5000000, 0xFF000000⟩
  | .bleRel .. => ⟨0xE6000000, 0xFF000000⟩
  | .bRel .. => ⟨0xE7000000, 0xFF000000⟩
  | .bplRel .. => ⟨0xE8000000, 0xFF000000⟩
  | .bneRel .. => ⟨0xE9000000, 0xFF000000⟩
  | .bccRel .. => ⟨0xEA000000, 0xFF000000⟩
  | .bvcRel .. => ⟨0xEB000000, 0xFF000000⟩
  | .bhiRel .. => ⟨0xEC000000, 0xFF000000⟩
  | .bgeRel .. => ⟨0xED000000, 0xFF000000⟩
  | .bgtRel .. => ⟨0xEE000000, 0xFF000000⟩
  | .bnvRel .. => ⟨0xEF000000, 0xFF000000⟩
  | .blmiRel .. => ⟨0xF0000000, 0xFF000000⟩
  | .bleqRel .. => ⟨0xF1000000, 0xFF000000⟩
  | .blcsRel .. => ⟨0xF2000000, 0xFF000000⟩
  | .blvsRel .. => ⟨0xF3000000, 0xFF000000⟩
  | .bllsRel .. => ⟨0xF4000000, 0xFF000000⟩
  | .blltRel .. => ⟨0xF5000000, 0xFF000000⟩
  | .blleRel .. => ⟨0xF6000000, 0xFF000000⟩
  | .blRel .. => ⟨0xF7000000, 0xFF000000⟩
  | .blplRel .. => ⟨0xF8000000, 0xFF000000⟩
  | .blneRel .. => ⟨0xF9000000, 0xFF000000⟩
  | .blccRel .. => ⟨0xFA000000, 0xFF000000⟩
  | .blvcRel .. => ⟨0xFB000000, 0xFF000000⟩
  | .blhiRel .. => ⟨0xFC000000, 0xFF000000⟩
  | .blgeRel .. => ⟨0xFD000000, 0xFF000000⟩
  | .blgtRel .. => ⟨0xFE000000, 0xFF000000⟩
  | .blnvRel .. => ⟨0xFF000000, 0xFF000000⟩

end Sys2Proof
end

