-- ==== Sys2Proof/Machine/State.lean ====
section
/-! DEFINITION. The machine's state as plain data (10_state.md section 1; 44_unit_builder.md R220), the reasons a step
can stop, and the state after reset. INVENTORY.md lists every field with its rule and its reset value. -/

namespace Sys2Proof.Machine

/-- A partial map from byte addresses to bytes: a list of cells, addresses strictly rising. An address that is not
listed is unmapped (20_memory.md R61). -/
abbrev Memory := List Host.Cell

/-- The kind of the access a MemoryFault is about (60_exceptions.md R263). -/
inductive AccessKind where
  | load
  | store
  | fetch
deriving DecidableEq, Repr

/-- The error signals (60_exceptions.md R260 to R263, R265). Each ends the run in a faulted condition (R270) with the
state as it was before the instruction: nothing written, `pc` at the failing instruction (R266). All are safe: the
model stops, and nothing can be proved about a state after one (R272; log 5). -/
inductive Fault where
  /-- Raised by FAD, FSB, FML, FDV at `a0` (R260). Safe: the spec gives them no other effect. -/
  | unsupportedOperation (a0 : Word)
  /-- Raised by DIV and UDIV at `a0` with C-value 0 (R261, decision D8). Safe. -/
  | divideByZero (a0 : Word)
  /-- Raised by DIV at `a0` for 0x80000000 by 0xFFFFFFFF when DIV_OVERFLOW is `trap` (R262, decision D9). Safe. -/
  | divideOverflow (a0 : Word)
  /-- Raised by LDW, LDB, STW, STB and by the instruction fetch, at `a0`, for the access at `addr` that is misaligned
  or not mapped (R263; decisions D4, D19, D28). Safe. -/
  | memoryFault (kind : AccessKind) (addr a0 : Word)
deriving DecidableEq, Repr

/-- The reasons the model gives a form no meaning. -/
inductive Refusal where
  /-- Raised by an arm of exec whose instruction has no meaning yet. Safe. No arm of this model answers it. -/
  | notModelled (mnemonic : String)
  /-- Raised by STW and STB at `a0` when a byte they would store lies at an address the fetch mapping defines: the
  spec refuses such a store (20_memory.md R66, decision D12; log 8). Safe. -/
  | storeToFetchMapping (addr a0 : Word)
deriving DecidableEq, Repr

/-- What a meaning or a step answers. -/
abbrev Result (σ : Type) := Host.Outcome σ Fault Refusal

/-- Why a unit closed (44_unit_builder.md R220, R222). -/
inductive CloseReason where
  | fallthroughCap
  | branchExit
  | breakpointHit
  | aborted (signal : Fault)
deriving DecidableEq, Repr

/-- The Builder's phase (44_unit_builder.md R220): `opened` is the spec's `Open`. -/
inductive Phase where
  | idle
  | opened
  | closed (reason : CloseReason)
deriving DecidableEq, Repr

/-- The exit descriptor of a closed unit (44_unit_builder.md R233, decision D25). A successor the form does not have
is `none` (log 13). -/
inductive ExitDescriptor where
  | fallthrough (next : Word)
  | direct (taken notTaken : Option Word)
  | indirect (notTaken : Option Word)
  | terminal (resume : Word)
deriving DecidableEq, Repr

/-- The Translation-Unit Builder's state (44_unit_builder.md R220) and the exit descriptor of the unit it has closed. -/
structure Builder where
  phase : Phase
  /-- the unit's start address -/
  start : Word
  /-- the address of the next instruction to translate -/
  cur : Word
  /-- instructions translated so far -/
  n : Nat
  /-- the bound on `n` for this unit (R224) -/
  max : Nat
  /-- the exit descriptor of the unit while the phase is Closed (R233); none in the other phases -/
  exit : Option ExitDescriptor
deriving DecidableEq, Repr

/-- The Builder between invocations: the values beside the phase stand for nothing (log 11). -/
def Builder.idle : Builder := ⟨.idle, 0, 0, 0, 0, none⟩

/-- What an invocation hands to the caller with the unit it closed (44_unit_builder.md R241): start address, instruction
count and exit descriptor, with the closing reason. The unit's operations have been applied already (log 7); the whole
record is Machine/TranslationUnit.lean's. -/
structure ClosedUnit where
  start : Word
  n : Nat
  reason : CloseReason
  exit : ExitDescriptor
deriving DecidableEq, Repr

/-- Everything the spec gives the machine (10_state.md section 1), and what stands behind its ports. -/
structure State where
  /-- the sixteen general registers (10_state.md R20); `x[15]` is the link register (R21) -/
  x : Vector Word 16
  /-- the high/remainder register (R23) -/
  H : Word
  /-- the program counter, a byte address (R24) -/
  pc : Word
  /-- Negative (R26) -/
  N : Bool
  /-- Zero (R26) -/
  Z : Bool
  /-- Carry (R26) -/
  C : Bool
  /-- Overflow (R26) -/
  V : Bool
  /-- the interrupt-enable bit, inert (R28) -/
  I : Bool
  /-- the Builder (R31; 44_unit_builder.md R220) -/
  builder : Builder
  /-- the unit the last step returned to the caller (44_unit_builder.md R222, R241); none if it returned none -/
  returned : Option ClosedUnit
  /-- the data memory behind the load and store port (20_memory.md R50, R61) -/
  mem : Memory
  /-- the fetch mapping behind the fetch port, fixed for a run (20_memory.md R50, R57, R66) -/
  fetchMap : Memory
  /-- the addresses the breakpoint lookup answers yes for (44_unit_builder.md R226) -/
  breakpoints : List Word
  /-- MAX_INSNS as the caller supplies it at each invocation (44_unit_builder.md R221, R223) -/
  maxInsns : Nat
  /-- the parameters fixed for the machine (00_scope.md R7) -/
  cfg : Config
deriving DecidableEq, Repr

/-- The machine right after reset when launched with `l` (10_state.md R40; 70_reset_and_hazards.md R300, R301): `pc` is
RESET_PC, `I` is 0 and the Builder is Idle. The spec leaves `x`, `H`, `N`, `Z`, `C`, `V` unspecified; the model sets
them to zero (DESIGN CHOICE, log 1), and no statement rests on that. -/
def State.launch (l : Launch) : State where
  x := Vector.replicate 16 0
  H := 0
  pc := l.resetPc
  N := false
  Z := false
  C := false
  V := false
  I := false
  builder := Builder.idle
  returned := none
  mem := l.mem
  fetchMap := l.fetchMap
  breakpoints := l.breakpoints
  maxInsns := l.maxInsns
  cfg := l.cfg

/-- The machine right after reset, with the model's launch parameters: RESET_PC 0x100, nothing mapped, no breakpoint, cap
512, page 4096 (DESIGN CHOICE, logs 2, 3, 4). -/
def State.reset : State := State.launch {}

end Sys2Proof.Machine
end

