-- ==== Sys2Proof/Machine/Flags.lean ====
section
/-! DEFINITION. Every flag computation of the spec (10_state.md R27; 40_regop_move_shift_logic.md R113, R116;
41_regop_arith.md R141, R145) and the branch conditions that read the flags (43_branch_ops.md R191, R192). -/

namespace Sys2Proof.Machine

/-- `Z <- bool(d == 0)` (40_regop_move_shift_logic.md R113). -/
def zeroFlag (d : Word) : Bool := d == 0

/-- `N <- d[31]` (40_regop_move_shift_logic.md R113). -/
def negativeFlag (d : Word) : Bool := bit d 31

/-- Carry after ADD and ADC: `ltu(d, bv)`, not a true carry-out (41_regop_arith.md R141; 90_conflicts.md C1). -/
def addCarry (d bv : Word) : Bool := d.ult bv

/-- Overflow after ADD and ADC: bit 31 of `(d ^ bv) & (d ^ cv)` (41_regop_arith.md R141). -/
def addOverflow (d bv cv : Word) : Bool := bit ((d ^^^ bv) &&& (d ^^^ cv)) 31

/-- Carry after SUB and SBC, a borrow flag: `gtu(d, bv)` (41_regop_arith.md R145; 90_conflicts.md C1). -/
def subCarry (d bv : Word) : Bool := bv.ult d

/-- Overflow after SUB and SBC: bit 31 of `(d ^ bv) & (bv ^ cv)` (41_regop_arith.md R145). -/
def subOverflow (d bv cv : Word) : Bool := bit ((d ^^^ bv) &&& (bv ^^^ cv)) 31

/-- The flags packed by successive shift-or, `N:Z:C:V` with `N` the most significant of the four bits, shifted left by
FLAGPACK_SHIFT (40_regop_move_shift_logic.md R116). -/
def packFlags (n z c v : Bool) (shift : Nat) : Word :=
  (put (BitVec.ofBool n) 3 ||| put (BitVec.ofBool z) 2 ||| put (BitVec.ofBool c) 1 ||| put (BitVec.ofBool v) 0) <<< shift

/-- The condition term of a selector (43_branch_ops.md R191). -/
def condTerm (n z c v : Bool) : CondSel → Bool
  | .minus => n
  | .equal => z
  | .carry => c
  | .overflow => v
  | .lowerSame => c || z
  | .less => n ^^ v
  | .lessEqual => (n ^^ v) || z
  | .always => true

/-- `taken`: the invert flag exclusive-or the term (43_branch_ops.md R191). -/
def condHolds (cc : Cond) (n z c v : Bool) : Bool := cc.inv ^^ condTerm n z c v cc.sel

end Sys2Proof.Machine
end

