-- ==== Sys2Proof/Machine/Memory.lean ====
section
/-! DEFINITION. Reading and writing a partial map of bytes (20_memory.md R52, R55, R56, R61), for the data memory and
for the fetch mapping alike. -/

namespace Sys2Proof.Machine

/-- The canonical form: addresses strictly rising, inside the 32-bit space. -/
def Memory.wf (m : Memory) : Bool := cellsWf m

/-- The byte at an address; `none` where the map has none (20_memory.md R61). -/
def Memory.read : Memory → Nat → Option Byte
  | [], _ => none
  | (k, b) :: rest, a => if a = k then some b else Memory.read rest a

/-- The map with `b` at address `a`, in canonical form if it was. -/
def Memory.write : Memory → Nat → Byte → Memory
  | [], a, b => [(a, b)]
  | (k, b') :: rest, a, b =>
    if a < k then (a, b) :: (k, b') :: rest
    else if a = k then (a, b) :: rest
    else (k, b') :: Memory.write rest a b

/-- The byte at a 32-bit address (20_memory.md R50). -/
def Memory.get (m : Memory) (a : Word) : Option Byte := m.read a.toNat

/-- The map with `b` at a 32-bit address. -/
def Memory.set (m : Memory) (a : Word) (b : Byte) : Memory := m.write a.toNat b

/-- The map has a byte at the address. -/
def Memory.mapped (m : Memory) (a : Word) : Bool := (m.get a).isSome

/-- All four bytes of the word at `a` are mapped (log 14). -/
def Memory.mappedWord (m : Memory) (a : Word) : Bool :=
  m.mapped a && m.mapped (a + 1#32) && m.mapped (a + 2#32) && m.mapped (a + 3#32)

/-- The little-endian word at `a`, if all four bytes are mapped (20_memory.md R52, R55; log 14). -/
def Memory.readWord (m : Memory) (a : Word) : Option Word :=
  match m.get a, m.get (a + 1#32), m.get (a + 2#32), m.get (a + 3#32) with
  | some b0, some b1, some b2, some b3 => some (wordOfBytes b0 b1 b2 b3)
  | _, _, _, _ => none

/-- The map with the four bytes of `w` at `a` to `a + 3#32`, little-endian (20_memory.md R52, R56). -/
def Memory.writeWord (m : Memory) (a w : Word) : Memory :=
  (((m.set a (byteOf w 0)).set (a + 1#32) (byteOf w 1)).set (a + 2#32) (byteOf w 2)).set (a + 3#32) (byteOf w 3)

/-- The map has a byte at one of the four addresses of the word at `a` (20_memory.md R66). -/
def Memory.overlapsWord (m : Memory) (a : Word) : Bool :=
  m.mapped a || m.mapped (a + 1#32) || m.mapped (a + 2#32) || m.mapped (a + 3#32)

/-- The address is a multiple of 4 (20_memory.md R54, R57). -/
def aligned (a : Word) : Bool := field a 0 2 == 0

end Sys2Proof.Machine
end

