-- ==== Sys2Proof/Machine/Operands.lean ====
section
/-! DEFINITION. Operand values and the values computed from them: the C-value (30_encoding.md R87;
40_regop_move_shift_logic.md R111), effective addresses (42_memory_ops.md R170), branch displacements (30_encoding.md
R89), and the arithmetic of the register class (00_scope.md R9, R11, R15). Exact arithmetic is on integers, narrowed at
the end. -/

namespace Sys2Proof.Machine

/-- General register `i` (00_scope.md R12; 10_state.md R22: none is hardwired). -/
def State.reg (s : State) (i : Reg) : Word := s.x.get i

/-- The C-value of the IMM format: `sext_16(imm)` when `v` is 1, else `zext_16(imm)` (30_encoding.md R87). -/
def immValue (v : Bool) (imm : BitVec 16) : Word := if v then imm.signExtend 32 else imm.setWidth 32

/-- `next`: the address after the instruction at `pc` (00_scope.md R12; 70_reset_and_hazards.md R312). -/
def State.next (s : State) : Word := s.pc + 4#32

/-- `ea = x[b] + sext_20(off20)` (42_memory_ops.md R170; 20_memory.md R58). -/
def State.ea (s : State) (b : Reg) (off : BitVec 20) : Word := s.reg b + off.signExtend 32

/-- `sext_24(off24) << 2` (30_encoding.md R89). -/
def displacement (off : BitVec 24) : Word := off.signExtend 32 <<< 2

/-- The shift or rotate amount `cv[4:0]` (40_regop_move_shift_logic.md R120 to R122). -/
def shiftAmount (cv : Word) : Nat := (field cv 0 5).toNat

/-- `shl(bv, cv[4:0])` (40_regop_move_shift_logic.md R120). -/
def lslValue (bv cv : Word) : Word := bv <<< shiftAmount cv

/-- `asr(bv, cv[4:0])` (40_regop_move_shift_logic.md R121). -/
def asrValue (bv cv : Word) : Word := bv.sshiftRight (shiftAmount cv)

/-- `ror(bv, cv[4:0])` (40_regop_move_shift_logic.md R122, decision D24). -/
def rorValue (bv cv : Word) : Word := bv.rotateRight (shiftAmount cv)

/-- `bv & cv` (40_regop_move_shift_logic.md R123). -/
def andValue (bv cv : Word) : Word := bv &&& cv

/-- `bv & ~cv`: the C-value is complemented (40_regop_move_shift_logic.md R124). -/
def annValue (bv cv : Word) : Word := bv &&& ~~~cv

/-- `bv | cv` (40_regop_move_shift_logic.md R125). -/
def iorValue (bv cv : Word) : Word := bv ||| cv

/-- `bv ^ cv` (40_regop_move_shift_logic.md R126). -/
def xorValue (bv cv : Word) : Word := bv ^^^ cv

/-- `(bv + cv) + cin` modulo 2^32; ADD has `cin` 0 (41_regop_arith.md R140, R142). -/
def addValue (bv cv : Word) (cin : Bool) : Word := bv + cv + put (BitVec.ofBool cin) 0

/-- `(bv - cv) - cin` modulo 2^32; SUB has `cin` 0 (41_regop_arith.md R144, R146). -/
def subValue (bv cv : Word) (cin : Bool) : Word := bv - cv - put (BitVec.ofBool cin) 0

/-- The 64-bit product, of the signed values or of the unsigned ones (41_regop_arith.md R148, R149). -/
def product (uns : Bool) (bv cv : Word) : BitVec 64 :=
  if uns then BitVec.ofNat 64 (bv.toNat * cv.toNat) else BitVec.ofInt 64 (bv.toInt * cv.toInt)

/-- The low half of a product, `P[31:0]`. -/
def lowHalf (p : BitVec 64) : Word := p.extractLsb' 0 32

/-- The high half of a product, `P[63:32]`. -/
def highHalf (p : BitVec 64) : Word := p.extractLsb' 32 32

/-- The quotient, truncated toward zero for the signed divide, spelled in 32 bits (41_regop_arith.md R150, R151). -/
def quotient (uns : Bool) (bv cv : Word) : Word :=
  if uns then BitVec.ofNat 32 (bv.toNat / cv.toNat) else BitVec.ofInt 32 (bv.toInt.tdiv cv.toInt)

/-- The remainder, with the sign of the dividend for the signed divide (41_regop_arith.md R150, R151; 00_scope.md R15). -/
def remainder (uns : Bool) (bv cv : Word) : Word :=
  if uns then BitVec.ofNat 32 (bv.toNat % cv.toNat) else BitVec.ofInt 32 (bv.toInt.tmod cv.toInt)

/-- The one overflow case of the signed divide, -2^31 by -1 (41_regop_arith.md R155). -/
def divideOverflows (bv cv : Word) : Bool := bv == 0x80000000 && cv == 0xFFFFFFFF

/-- What a divide at `a0` raises before it computes anything: DivideByZero for a zero divisor (41_regop_arith.md R154),
DivideOverflow in the overflow case of the signed divide under DIV_OVERFLOW = trap (R155). -/
def divideSignal (policy : DivOverflow) (uns : Bool) (bv cv a0 : Word) : Option Fault :=
  if cv = 0 then some (.divideByZero a0)
  else if !uns && divideOverflows bv cv && policy == .trap then some (.divideOverflow a0)
  else none

end Sys2Proof.Machine
end

