-- ==== Sys2Proof/Machine/Ops.lean ====
section
/-! DEFINITION. The named operations over the state that every meaning is made of: register and flag writes, the end of
a register-class instruction, raising a signal, the one memory access of a load or store, the branch, and the fetch.
All values are computed from the state before the instruction; the writes land together (40_regop_move_shift_logic.md
R112). -/

namespace Sys2Proof.Machine

/-- Go on with the value of a completed operation; a signal or a refusal ends the instruction (00_scope.md R14). -/
def bindResult {α β : Type} (r : Result α) (f : α → Result β) : Result β :=
  match r with
  | .next a => f a
  | .fault signal => .fault signal
  | .refused reason => .refused reason

/-! ### Single writes -/

/-- `x[i] <- w` (00_scope.md R12). -/
def State.setReg (s : State) (i : Reg) (w : Word) : State := { s with x := s.x.set i.val w i.isLt }

/-- `H <- w` (10_state.md R23). -/
def State.setH (s : State) (w : Word) : State := { s with H := w }

/-- `Z` and `N` from `d` (40_regop_move_shift_logic.md R113). -/
def State.setZN (s : State) (d : Word) : State := { s with Z := zeroFlag d, N := negativeFlag d }

/-- `C` and `V` (41_regop_arith.md R141, R145). -/
def State.setCV (s : State) (c v : Bool) : State := { s with C := c, V := v }

/-- `pc <- a` (10_state.md R24). -/
def State.setPc (s : State) (a : Word) : State := { s with pc := a }

/-- The data memory after a completed store (20_memory.md R56). -/
def State.setMem (s : State) (m : Memory) : State := { s with mem := m }

/-- The Builder's state (44_unit_builder.md R220). -/
def State.setBuilder (s : State) (b : Builder) : State := { s with builder := b }

/-- The unit output (44_unit_builder.md R241). -/
def State.setReturned (s : State) (u : Option ClosedUnit) : State := { s with returned := u }

/-! ### Raising a signal -/

/-- Raise an error signal (00_scope.md R14; 60_exceptions.md R266, R267, R268). There is no trap entry: no vector, no
saved register, no mode or `I` change. Nothing of the instruction takes effect, `pc` stays at it, and the run ends in a
faulted condition with the signal as its answer (R270; log 5). -/
def raise (signal : Fault) : Result State := .fault signal

-- The spec has no return from a signal (60_exceptions.md R270): no instruction and no operation resumes from one.

/-! ### The register class -/

/-- Step 4 of a register-class instruction (40_regop_move_shift_logic.md R110, R113): the destination, `Z` and `N` from
it, and `pc` to the next instruction. -/
def State.finish (s : State) (a : Reg) (d : Word) : State := ((s.setReg a d).setZN d).setPc s.next

/-- A move (40_regop_move_shift_logic.md R114 to R119). -/
def moveOp (a : Reg) (d : Word) (s : State) : Result State := .next (s.finish a d)

/-- A shift, rotate or logic operation (40_regop_move_shift_logic.md R120 to R126): `H`, `C`, `V` unchanged. -/
def aluOp (f : Word → Word → Word) (a b : Reg) (cv : Word) (s : State) : Result State :=
  .next (s.finish a (f (s.reg b) cv))

/-- ADD (`cin` 0) and ADC (`cin` the old Carry): 41_regop_arith.md R140 to R142. -/
def addOp (cin : Bool) (a b : Reg) (cv : Word) (s : State) : Result State :=
  let bv := s.reg b
  let d := addValue bv cv cin
  .next ((s.finish a d).setCV (addCarry d bv) (addOverflow d bv cv))

/-- SUB (`cin` 0) and SBC (`cin` the old Carry): 41_regop_arith.md R144 to R146. -/
def subOp (cin : Bool) (a b : Reg) (cv : Word) (s : State) : Result State :=
  let bv := s.reg b
  let d := subValue bv cv cin
  .next ((s.finish a d).setCV (subCarry d bv) (subOverflow d bv cv))

/-- MUL and UMUL: the low half of the product to the destination, the high half to `H` (41_regop_arith.md R148, R149). -/
def mulOp (uns : Bool) (a b : Reg) (cv : Word) (s : State) : Result State :=
  let p := product uns (s.reg b) cv
  .next ((s.finish a (lowHalf p)).setH (highHalf p))

/-- DIV and UDIV: the signal if there is one, else the quotient to the destination and the remainder to `H`
(41_regop_arith.md R150 to R155). -/
def divOp (uns : Bool) (a b : Reg) (cv : Word) (s : State) : Result State :=
  let bv := s.reg b
  match divideSignal s.cfg.divOverflow uns bv cv s.pc with
  | some signal => raise signal
  | none => .next ((s.finish a (quotient uns bv cv)).setH (remainder uns bv cv))

/-- A floating-point placeholder: UnsupportedOperation, whatever its fields (41_regop_arith.md R164). -/
def floatOp (s : State) : Result State := raise (.unsupportedOperation s.pc)

/-! ### The memory class -/

/-- The end of a load: the loaded value to the destination, `Z` and `N` from it, `pc` to the next instruction
(42_memory_ops.md R171, R172, R175). -/
def loadOp (value : Option Word) (a : Reg) (ea : Word) (s : State) : Result State :=
  match value with
  | some d => .next (s.finish a d)
  | none => raise (.memoryFault .load ea s.pc)

/-- `MemRead(ea, 4)`: nothing where `ea` is misaligned or a byte is unmapped (20_memory.md R54, R55). -/
def State.memReadWord (s : State) (ea : Word) : Option Word := if aligned ea then s.mem.readWord ea else none

/-- `zext_8(MemRead(ea, 1))`: nothing where the byte is unmapped (20_memory.md R55; 42_memory_ops.md R172). -/
def State.memReadByte (s : State) (ea : Word) : Option Word := (s.mem.get ea).map (BitVec.setWidth 32)

/-- `MemWrite(ea, 4, w)`: the data memory after it. A misaligned address faults first (20_memory.md R54); then the model
refuses a store that overlaps the fetch mapping (R66); then an unmapped byte faults and nothing is written (R56, R61;
log 8). -/
def State.memWriteWord (s : State) (ea w : Word) : Result Memory :=
  if !aligned ea then .fault (.memoryFault .store ea s.pc)
  else if s.fetchMap.overlapsWord ea then .refused (.storeToFetchMapping ea s.pc)
  else if !s.mem.mappedWord ea then .fault (.memoryFault .store ea s.pc)
  else .next (s.mem.writeWord ea w)

/-- `MemWrite(ea, 1, b)`: as the word write, without an alignment rule (20_memory.md R54, R56, R61, R66). -/
def State.memWriteByte (s : State) (ea : Word) (b : Byte) : Result Memory :=
  if s.fetchMap.mapped ea then .refused (.storeToFetchMapping ea s.pc)
  else if !s.mem.mapped ea then .fault (.memoryFault .store ea s.pc)
  else .next (s.mem.set ea b)

/-- The end of a store: the memory its write left, and `pc` to the next instruction; no register, no flag
(42_memory_ops.md R173 to R175). -/
def storeOp (written : Result Memory) (s : State) : Result State :=
  bindResult written fun m => .next ((s.setMem m).setPc s.next)

/-! ### The branch class -/

/-- The link register is `x[15]` (10_state.md R21, decision D1). -/
def linkReg : Reg := 15

/-- `x[15] <- next`, `Z` and `N` from it (43_branch_ops.md R196). -/
def State.writeLink (s : State) : State := (s.setReg linkReg s.next).setZN s.next

/-- The condition of a branch on the flags before the instruction (43_branch_ops.md R191). -/
def State.taken (s : State) (cc : Cond) : Bool := condHolds cc s.N s.Z s.C s.V

/-- A branch to `target`, computed before any write (43_branch_ops.md R191, R193, R196 to R202). The link is written on
the taken path, and on the other only under LINK_WRITE_WHEN_NOT_TAKEN. -/
def branchOp (link : Bool) (cc : Cond) (target : Word) (s : State) : Result State :=
  let writes := link && (s.taken cc || s.cfg.linkWriteWhenNotTaken)
  let s1 := if writes then s.writeLink else s
  .next (s1.setPc (if s.taken cc then target else s.next))

/-- The pc-relative target, `next` plus the displacement (43_branch_ops.md R193). -/
def State.relTarget (s : State) (off : BitVec 24) : Word := s.next + displacement off

/-! ### Fetch and breakpoints -/

/-- `Fetch(a)`: the word at `a`, nothing where `a` is misaligned or the mapping has no word there (20_memory.md R57). -/
def State.fetch (s : State) (a : Word) : Option Word := if aligned a then s.fetchMap.readWord a else none

/-- The breakpoint lookup: an exact match on the instruction's address (44_unit_builder.md R226). -/
def State.breakpointAt (s : State) (a : Word) : Bool := s.breakpoints.contains a

end Sys2Proof.Machine
end

