-- ==== Sys2Proof/Machine/Builder.lean ====
section
/-! DEFINITION. The Translation-Unit Builder as a state machine: invocation, the breakpoint close, counting one
instruction with the closes it causes, the abort, and the return to Idle (44_unit_builder.md R220 to R234). -/

namespace Sys2Proof.Machine

/-- The 4-byte slots left on the page of `start` (44_unit_builder.md R224). -/
def slotsLeft (cfg : Config) (start : Word) : Nat := (cfg.pageSize - start.toNat % cfg.pageSize) / 4

/-- An invocation at `start` with cap `maxInsns` (44_unit_builder.md R222, R224): `Open`, nothing translated yet. -/
def Builder.invoke (cfg : Config) (start : Word) (maxInsns : Nat) : Builder :=
  ⟨.opened, start, start, 0, min maxInsns (slotsLeft cfg start), none⟩

/-- The close on a breakpoint at `cur`, which is not advanced past (44_unit_builder.md R231). -/
def Builder.closeBreakpoint (b : Builder) : Builder :=
  { b with phase := .closed .breakpointHit, exit := some (.terminal b.cur) }

/-- The abort with a signal; no unit is returned (44_unit_builder.md R232). -/
def Builder.abort (b : Builder) (signal : Fault) : Builder :=
  { b with phase := .closed (.aborted signal), exit := none }

/-- The exit descriptor of the branch word `w` at `cur` (44_unit_builder.md R233): one successor where only one can be
taken (log 13). -/
def branchExit (w cur : Word) : ExitDescriptor :=
  let next := cur + 4#32
  let cc := condOfWord w
  let notTaken := if cc = .al then none else some next
  if cc = .nv then .direct none (some next)
  else if bit w 29 then .direct (some (next + displacement (field w 0 24))) notTaken
  else .indirect notTaken

/-- One translated word: a branch closes the unit whatever the cap (44_unit_builder.md R228, R229); any other word moves
`cur` on and closes it when `n` reaches `max` (R225, R229, R230). -/
def Builder.count (b : Builder) (w : Word) : Builder :=
  if isBranchWord w then
    { b with n := b.n + 1, phase := .closed .branchExit, exit := some (branchExit w b.cur) }
  else
    let b1 := { b with n := b.n + 1, cur := b.cur + 4#32 }
    if b1.max ≤ b1.n then { b1 with phase := .closed .fallthroughCap, exit := some (.fallthrough b1.cur) } else b1

/-- What the Builder hands over at its return: the unit it closed (44_unit_builder.md R241); none after an abort, whose
error is returned instead (R243), and none while it is not Closed. -/
def Builder.output (b : Builder) : Option ClosedUnit :=
  match b.phase, b.exit with
  | .closed reason, some exit => some ⟨b.start, b.n, reason, exit⟩
  | _, _ => none

/-- The row `Closed(any)` to `Idle` of 44_unit_builder.md R222: a closed unit is returned and the Builder is Idle again.
In the other phases nothing is returned. -/
def State.returnUnit (s : State) : State :=
  match s.builder.phase with
  | .closed _ => (s.setBuilder Builder.idle).setReturned s.builder.output
  | _ => s.setReturned none

/-- The row `Idle` to `Open` of 44_unit_builder.md R222: the caller invokes the Builder at `pc` with its cap (R221;
70_reset_and_hazards.md R300; log 7). -/
def State.invoke (s : State) : State := s.setBuilder (Builder.invoke s.cfg s.pc s.maxInsns)

/-- The state with a unit open: a unit in progress goes on, an idle Builder is invoked. A closed one, which no step leaves
behind, returns its unit first: nothing leads from `Closed` back to `Open` (44_unit_builder.md R222). -/
def State.openUnit (s : State) : State :=
  match s.builder.phase with
  | .opened => s
  | .idle => s.invoke
  | .closed _ => s.returnUnit.invoke

end Sys2Proof.Machine
end

