-- ==== Sys2Proof/Machine/AddSub.lean ====
section
/-! DEFINITION. Add and subtract, without and with carry (41_regop_arith.md R140 to R146). All four flags written. -/

namespace Sys2Proof.Machine

/-- `ADD Ra, Rb, Rc` (41_regop_arith.md R140). -/
def execAddReg (a b c : Reg) (s : State) : Result State :=
  addOp false a b (s.reg c) s

/-- `ADC Ra, Rb, Rc` (41_regop_arith.md R142). -/
def execAdcReg (a b c : Reg) (s : State) : Result State :=
  addOp s.C a b (s.reg c) s

/-- `ADD Ra, Rb, #n` (41_regop_arith.md R140). -/
def execAddImm (a b : Reg) (v : Bool) (imm : BitVec 16) (s : State) : Result State :=
  addOp false a b (immValue v imm) s

/-- `ADC Ra, Rb, #n` (41_regop_arith.md R142). -/
def execAdcImm (a b : Reg) (v : Bool) (imm : BitVec 16) (s : State) : Result State :=
  addOp s.C a b (immValue v imm) s

/-- `SUB Ra, Rb, Rc` (41_regop_arith.md R144). -/
def execSubReg (a b c : Reg) (s : State) : Result State :=
  subOp false a b (s.reg c) s

/-- `SBC Ra, Rb, Rc` (41_regop_arith.md R146). -/
def execSbcReg (a b c : Reg) (s : State) : Result State :=
  subOp s.C a b (s.reg c) s

/-- `SUB Ra, Rb, #n` (41_regop_arith.md R144). -/
def execSubImm (a b : Reg) (v : Bool) (imm : BitVec 16) (s : State) : Result State :=
  subOp false a b (immValue v imm) s

/-- `SBC Ra, Rb, #n` (41_regop_arith.md R146). -/
def execSbcImm (a b : Reg) (v : Bool) (imm : BitVec 16) (s : State) : Result State :=
  subOp s.C a b (immValue v imm) s

end Sys2Proof.Machine
end

