-- ==== Sys2Proof/Machine/BranchInd.lean ====
section
/-! DEFINITION. The register-indirect branches, without and with link (43_branch_ops.md R199, R200). -/

namespace Sys2Proof.Machine

/-- `BMI Rc` (43_branch_ops.md R199). -/
def execBmiInd (c : Reg) (s : State) : Result State :=
  branchOp false .mi (s.reg c) s

/-- `BEQ Rc` (43_branch_ops.md R199). -/
def execBeqInd (c : Reg) (s : State) : Result State :=
  branchOp false .eq (s.reg c) s

/-- `BCS Rc` (43_branch_ops.md R199). -/
def execBcsInd (c : Reg) (s : State) : Result State :=
  branchOp false .cs (s.reg c) s

/-- `BVS Rc` (43_branch_ops.md R199). -/
def execBvsInd (c : Reg) (s : State) : Result State :=
  branchOp false .vs (s.reg c) s

/-- `BLS Rc` (43_branch_ops.md R199). -/
def execBlsInd (c : Reg) (s : State) : Result State :=
  branchOp false .ls (s.reg c) s

/-- `BLT Rc` (43_branch_ops.md R199). -/
def execBltInd (c : Reg) (s : State) : Result State :=
  branchOp false .lt (s.reg c) s

/-- `BLE Rc` (43_branch_ops.md R199). -/
def execBleInd (c : Reg) (s : State) : Result State :=
  branchOp false .le (s.reg c) s

/-- `B Rc` (43_branch_ops.md R199). -/
def execBInd (c : Reg) (s : State) : Result State :=
  branchOp false .al (s.reg c) s

/-- `BPL Rc` (43_branch_ops.md R199). -/
def execBplInd (c : Reg) (s : State) : Result State :=
  branchOp false .pl (s.reg c) s

/-- `BNE Rc` (43_branch_ops.md R199). -/
def execBneInd (c : Reg) (s : State) : Result State :=
  branchOp false .ne (s.reg c) s

/-- `BCC Rc` (43_branch_ops.md R199). -/
def execBccInd (c : Reg) (s : State) : Result State :=
  branchOp false .cc (s.reg c) s

/-- `BVC Rc` (43_branch_ops.md R199). -/
def execBvcInd (c : Reg) (s : State) : Result State :=
  branchOp false .vc (s.reg c) s

/-- `BHI Rc` (43_branch_ops.md R199). -/
def execBhiInd (c : Reg) (s : State) : Result State :=
  branchOp false .hi (s.reg c) s

/-- `BGE Rc` (43_branch_ops.md R199). -/
def execBgeInd (c : Reg) (s : State) : Result State :=
  branchOp false .ge (s.reg c) s

/-- `BGT Rc` (43_branch_ops.md R199). -/
def execBgtInd (c : Reg) (s : State) : Result State :=
  branchOp false .gt (s.reg c) s

/-- `BNV Rc` (43_branch_ops.md R199). -/
def execBnvInd (c : Reg) (s : State) : Result State :=
  branchOp false .nv (s.reg c) s

/-- `BLMI Rc` (43_branch_ops.md R200). -/
def execBlmiInd (c : Reg) (s : State) : Result State :=
  branchOp true .mi (s.reg c) s

/-- `BLEQ Rc` (43_branch_ops.md R200). -/
def execBleqInd (c : Reg) (s : State) : Result State :=
  branchOp true .eq (s.reg c) s

/-- `BLCS Rc` (43_branch_ops.md R200). -/
def execBlcsInd (c : Reg) (s : State) : Result State :=
  branchOp true .cs (s.reg c) s

/-- `BLVS Rc` (43_branch_ops.md R200). -/
def execBlvsInd (c : Reg) (s : State) : Result State :=
  branchOp true .vs (s.reg c) s

/-- `BLLS Rc` (43_branch_ops.md R200). -/
def execBllsInd (c : Reg) (s : State) : Result State :=
  branchOp true .ls (s.reg c) s

/-- `BLLT Rc` (43_branch_ops.md R200). -/
def execBlltInd (c : Reg) (s : State) : Result State :=
  branchOp true .lt (s.reg c) s

/-- `BLLE Rc` (43_branch_ops.md R200). -/
def execBlleInd (c : Reg) (s : State) : Result State :=
  branchOp true .le (s.reg c) s

/-- `BL Rc` (43_branch_ops.md R200). -/
def execBlInd (c : Reg) (s : State) : Result State :=
  branchOp true .al (s.reg c) s

/-- `BLPL Rc` (43_branch_ops.md R200). -/
def execBlplInd (c : Reg) (s : State) : Result State :=
  branchOp true .pl (s.reg c) s

/-- `BLNE Rc` (43_branch_ops.md R200). -/
def execBlneInd (c : Reg) (s : State) : Result State :=
  branchOp true .ne (s.reg c) s

/-- `BLCC Rc` (43_branch_ops.md R200). -/
def execBlccInd (c : Reg) (s : State) : Result State :=
  branchOp true .cc (s.reg c) s

/-- `BLVC Rc` (43_branch_ops.md R200). -/
def execBlvcInd (c : Reg) (s : State) : Result State :=
  branchOp true .vc (s.reg c) s

/-- `BLHI Rc` (43_branch_ops.md R200). -/
def execBlhiInd (c : Reg) (s : State) : Result State :=
  branchOp true .hi (s.reg c) s

/-- `BLGE Rc` (43_branch_ops.md R200). -/
def execBlgeInd (c : Reg) (s : State) : Result State :=
  branchOp true .ge (s.reg c) s

/-- `BLGT Rc` (43_branch_ops.md R200). -/
def execBlgtInd (c : Reg) (s : State) : Result State :=
  branchOp true .gt (s.reg c) s

/-- `BLNV Rc` (43_branch_ops.md R200). -/
def execBlnvInd (c : Reg) (s : State) : Result State :=
  branchOp true .nv (s.reg c) s

end Sys2Proof.Machine
end

