-- ==== Sys2Proof/Machine/BranchRel.lean ====
section
/-! DEFINITION. The pc-relative branches, without and with link (43_branch_ops.md R197, R198). -/

namespace Sys2Proof.Machine

/-- `BMI label` (43_branch_ops.md R197). -/
def execBmiRel (off : BitVec 24) (s : State) : Result State :=
  branchOp false .mi (s.relTarget off) s

/-- `BEQ label` (43_branch_ops.md R197). -/
def execBeqRel (off : BitVec 24) (s : State) : Result State :=
  branchOp false .eq (s.relTarget off) s

/-- `BCS label` (43_branch_ops.md R197). -/
def execBcsRel (off : BitVec 24) (s : State) : Result State :=
  branchOp false .cs (s.relTarget off) s

/-- `BVS label` (43_branch_ops.md R197). -/
def execBvsRel (off : BitVec 24) (s : State) : Result State :=
  branchOp false .vs (s.relTarget off) s

/-- `BLS label` (43_branch_ops.md R197). -/
def execBlsRel (off : BitVec 24) (s : State) : Result State :=
  branchOp false .ls (s.relTarget off) s

/-- `BLT label` (43_branch_ops.md R197). -/
def execBltRel (off : BitVec 24) (s : State) : Result State :=
  branchOp false .lt (s.relTarget off) s

/-- `BLE label` (43_branch_ops.md R197). -/
def execBleRel (off : BitVec 24) (s : State) : Result State :=
  branchOp false .le (s.relTarget off) s

/-- `B label` (43_branch_ops.md R197). -/
def execBRel (off : BitVec 24) (s : State) : Result State :=
  branchOp false .al (s.relTarget off) s

/-- `BPL label` (43_branch_ops.md R197). -/
def execBplRel (off : BitVec 24) (s : State) : Result State :=
  branchOp false .pl (s.relTarget off) s

/-- `BNE label` (43_branch_ops.md R197). -/
def execBneRel (off : BitVec 24) (s : State) : Result State :=
  branchOp false .ne (s.relTarget off) s

/-- `BCC label` (43_branch_ops.md R197). -/
def execBccRel (off : BitVec 24) (s : State) : Result State :=
  branchOp false .cc (s.relTarget off) s

/-- `BVC label` (43_branch_ops.md R197). -/
def execBvcRel (off : BitVec 24) (s : State) : Result State :=
  branchOp false .vc (s.relTarget off) s

/-- `BHI label` (43_branch_ops.md R197). -/
def execBhiRel (off : BitVec 24) (s : State) : Result State :=
  branchOp false .hi (s.relTarget off) s

/-- `BGE label` (43_branch_ops.md R197). -/
def execBgeRel (off : BitVec 24) (s : State) : Result State :=
  branchOp false .ge (s.relTarget off) s

/-- `BGT label` (43_branch_ops.md R197). -/
def execBgtRel (off : BitVec 24) (s : State) : Result State :=
  branchOp false .gt (s.relTarget off) s

/-- `BNV label` (43_branch_ops.md R197). -/
def execBnvRel (off : BitVec 24) (s : State) : Result State :=
  branchOp false .nv (s.relTarget off) s

/-- `BLMI label` (43_branch_ops.md R198). -/
def execBlmiRel (off : BitVec 24) (s : State) : Result State :=
  branchOp true .mi (s.relTarget off) s

/-- `BLEQ label` (43_branch_ops.md R198). -/
def execBleqRel (off : BitVec 24) (s : State) : Result State :=
  branchOp true .eq (s.relTarget off) s

/-- `BLCS label` (43_branch_ops.md R198). -/
def execBlcsRel (off : BitVec 24) (s : State) : Result State :=
  branchOp true .cs (s.relTarget off) s

/-- `BLVS label` (43_branch_ops.md R198). -/
def execBlvsRel (off : BitVec 24) (s : State) : Result State :=
  branchOp true .vs (s.relTarget off) s

/-- `BLLS label` (43_branch_ops.md R198). -/
def execBllsRel (off : BitVec 24) (s : State) : Result State :=
  branchOp true .ls (s.relTarget off) s

/-- `BLLT label` (43_branch_ops.md R198). -/
def execBlltRel (off : BitVec 24) (s : State) : Result State :=
  branchOp true .lt (s.relTarget off) s

/-- `BLLE label` (43_branch_ops.md R198). -/
def execBlleRel (off : BitVec 24) (s : State) : Result State :=
  branchOp true .le (s.relTarget off) s

/-- `BL label` (43_branch_ops.md R198). -/
def execBlRel (off : BitVec 24) (s : State) : Result State :=
  branchOp true .al (s.relTarget off) s

/-- `BLPL label` (43_branch_ops.md R198). -/
def execBlplRel (off : BitVec 24) (s : State) : Result State :=
  branchOp true .pl (s.relTarget off) s

/-- `BLNE label` (43_branch_ops.md R198). -/
def execBlneRel (off : BitVec 24) (s : State) : Result State :=
  branchOp true .ne (s.relTarget off) s

/-- `BLCC label` (43_branch_ops.md R198). -/
def execBlccRel (off : BitVec 24) (s : State) : Result State :=
  branchOp true .cc (s.relTarget off) s

/-- `BLVC label` (43_branch_ops.md R198). -/
def execBlvcRel (off : BitVec 24) (s : State) : Result State :=
  branchOp true .vc (s.relTarget off) s

/-- `BLHI label` (43_branch_ops.md R198). -/
def execBlhiRel (off : BitVec 24) (s : State) : Result State :=
  branchOp true .hi (s.relTarget off) s

/-- `BLGE label` (43_branch_ops.md R198). -/
def execBlgeRel (off : BitVec 24) (s : State) : Result State :=
  branchOp true .ge (s.relTarget off) s

/-- `BLGT label` (43_branch_ops.md R198). -/
def execBlgtRel (off : BitVec 24) (s : State) : Result State :=
  branchOp true .gt (s.relTarget off) s

/-- `BLNV label` (43_branch_ops.md R198). -/
def execBlnvRel (off : BitVec 24) (s : State) : Result State :=
  branchOp true .nv (s.relTarget off) s

end Sys2Proof.Machine
end

