-- ==== Sys2Proof/Machine/Float.lean ====
section
/-! DEFINITION. The floating-point placeholders (41_regop_arith.md R160 to R164): each raises UnsupportedOperation. -/

namespace Sys2Proof.Machine

/-- `FAD Ra, Rb, Rc` (41_regop_arith.md R160). -/
def execFadReg (s : State) : Result State :=
  floatOp s

/-- `FAD Ra, Rb, #n` (41_regop_arith.md R160). -/
def execFadImm (s : State) : Result State :=
  floatOp s

/-- `FSB Ra, Rb, Rc` (41_regop_arith.md R161). -/
def execFsbReg (s : State) : Result State :=
  floatOp s

/-- `FSB Ra, Rb, #n` (41_regop_arith.md R161). -/
def execFsbImm (s : State) : Result State :=
  floatOp s

/-- `FML Ra, Rb, Rc` (41_regop_arith.md R162). -/
def execFmlReg (s : State) : Result State :=
  floatOp s

/-- `FML Ra, Rb, #n` (41_regop_arith.md R162). -/
def execFmlImm (s : State) : Result State :=
  floatOp s

/-- `FDV Ra, Rb, Rc` (41_regop_arith.md R163). -/
def execFdvReg (s : State) : Result State :=
  floatOp s

/-- `FDV Ra, Rb, #n` (41_regop_arith.md R163). -/
def execFdvImm (s : State) : Result State :=
  floatOp s

end Sys2Proof.Machine
end

