-- ==== Sys2Proof/Machine/LoadStore.lean ====
section
/-! DEFINITION. Loads and stores (42_memory_ops.md R170 to R176). -/

namespace Sys2Proof.Machine

/-- `LDW Ra, Rb, #n` (42_memory_ops.md R171). -/
def execLdw (a b : Reg) (off : BitVec 20) (s : State) : Result State :=
  loadOp (s.memReadWord (s.ea b off)) a (s.ea b off) s

/-- `LDB Ra, Rb, #n` (42_memory_ops.md R172). -/
def execLdb (a b : Reg) (off : BitVec 20) (s : State) : Result State :=
  loadOp (s.memReadByte (s.ea b off)) a (s.ea b off) s

/-- `STW Ra, Rb, #n` (42_memory_ops.md R173). -/
def execStw (a b : Reg) (off : BitVec 20) (s : State) : Result State :=
  storeOp (s.memWriteWord (s.ea b off) (s.reg a)) s

/-- `STB Ra, Rb, #n` (42_memory_ops.md R174). -/
def execStb (a b : Reg) (off : BitVec 20) (s : State) : Result State :=
  storeOp (s.memWriteByte (s.ea b off) (field (s.reg a) 0 8)) s

end Sys2Proof.Machine
end

