-- ==== Sys2Proof/Machine/Logic.lean ====
section
/-! DEFINITION. The logic operations (40_regop_move_shift_logic.md R123 to R126). `C`, `V`, `H` unchanged. -/

namespace Sys2Proof.Machine

/-- `AND Ra, Rb, Rc` (40_regop_move_shift_logic.md R123). -/
def execAndReg (a b c : Reg) (s : State) : Result State :=
  aluOp andValue a b (s.reg c) s

/-- `AND Ra, Rb, #n` (40_regop_move_shift_logic.md R123). -/
def execAndImm (a b : Reg) (v : Bool) (imm : BitVec 16) (s : State) : Result State :=
  aluOp andValue a b (immValue v imm) s

/-- `ANN Ra, Rb, Rc` (40_regop_move_shift_logic.md R124). -/
def execAnnReg (a b c : Reg) (s : State) : Result State :=
  aluOp annValue a b (s.reg c) s

/-- `ANN Ra, Rb, #n` (40_regop_move_shift_logic.md R124). -/
def execAnnImm (a b : Reg) (v : Bool) (imm : BitVec 16) (s : State) : Result State :=
  aluOp annValue a b (immValue v imm) s

/-- `IOR Ra, Rb, Rc` (40_regop_move_shift_logic.md R125). -/
def execIorReg (a b c : Reg) (s : State) : Result State :=
  aluOp iorValue a b (s.reg c) s

/-- `IOR Ra, Rb, #n` (40_regop_move_shift_logic.md R125). -/
def execIorImm (a b : Reg) (v : Bool) (imm : BitVec 16) (s : State) : Result State :=
  aluOp iorValue a b (immValue v imm) s

/-- `XOR Ra, Rb, Rc` (40_regop_move_shift_logic.md R126). -/
def execXorReg (a b c : Reg) (s : State) : Result State :=
  aluOp xorValue a b (s.reg c) s

/-- `XOR Ra, Rb, #n` (40_regop_move_shift_logic.md R126). -/
def execXorImm (a b : Reg) (v : Bool) (imm : BitVec 16) (s : State) : Result State :=
  aluOp xorValue a b (immValue v imm) s

end Sys2Proof.Machine
end

