-- ==== Sys2Proof/Machine/Move.lean ====
section
/-! DEFINITION. The moves: MOV in its modes, MOV_H, MOV_FLAGS, MOVHI (40_regop_move_shift_logic.md R114 to R119). Each sets `Z`, `N` from the value moved and leaves `C`, `V`, `H`. -/

namespace Sys2Proof.Machine

/-- `MOV Ra, Rc` (40_regop_move_shift_logic.md R114). -/
def execMovReg (a c : Reg) (s : State) : Result State :=
  moveOp a (s.reg c) s

/-- `MOV Ra, H` (40_regop_move_shift_logic.md R115). -/
def execMovH (a : Reg) (s : State) : Result State :=
  moveOp a s.H s

/-- `MOV Ra, FLAGS` (40_regop_move_shift_logic.md R116, decision D11). -/
def execMovFlags (a : Reg) (s : State) : Result State :=
  moveOp a (packFlags s.N s.Z s.C s.V s.cfg.flagpackShift.val) s

/-- `MOV Ra, #n` (40_regop_move_shift_logic.md R117). -/
def execMovImm (a : Reg) (v : Bool) (imm : BitVec 16) (s : State) : Result State :=
  moveOp a (immValue v imm) s

/-- `MOVHI Ra, #n` (40_regop_move_shift_logic.md R118). -/
def execMovhi (a : Reg) (imm : BitVec 16) (s : State) : Result State :=
  moveOp a (put imm 16) s

end Sys2Proof.Machine
end

