-- ==== Sys2Proof/Machine/MulDiv.lean ====
section
/-! DEFINITION. Multiply and divide (41_regop_arith.md R148 to R155). `C`, `V` unchanged. -/

namespace Sys2Proof.Machine

/-- `MUL Ra, Rb, Rc` (41_regop_arith.md R148). -/
def execMulReg (a b c : Reg) (s : State) : Result State :=
  mulOp false a b (s.reg c) s

/-- `UMUL Ra, Rb, Rc` (41_regop_arith.md R149). -/
def execUmulReg (a b c : Reg) (s : State) : Result State :=
  mulOp true a b (s.reg c) s

/-- `MUL Ra, Rb, #n` (41_regop_arith.md R148). -/
def execMulImm (a b : Reg) (v : Bool) (imm : BitVec 16) (s : State) : Result State :=
  mulOp false a b (immValue v imm) s

/-- `UMUL Ra, Rb, #n` (41_regop_arith.md R149). -/
def execUmulImm (a b : Reg) (v : Bool) (imm : BitVec 16) (s : State) : Result State :=
  mulOp true a b (immValue v imm) s

/-- `DIV Ra, Rb, Rc` (41_regop_arith.md R150). -/
def execDivReg (a b c : Reg) (s : State) : Result State :=
  divOp false a b (s.reg c) s

/-- `UDIV Ra, Rb, Rc` (41_regop_arith.md R151). -/
def execUdivReg (a b c : Reg) (s : State) : Result State :=
  divOp true a b (s.reg c) s

/-- `DIV Ra, Rb, #n` (41_regop_arith.md R150). -/
def execDivImm (a b : Reg) (v : Bool) (imm : BitVec 16) (s : State) : Result State :=
  divOp false a b (immValue v imm) s

/-- `UDIV Ra, Rb, #n` (41_regop_arith.md R151). -/
def execUdivImm (a b : Reg) (v : Bool) (imm : BitVec 16) (s : State) : Result State :=
  divOp true a b (immValue v imm) s

end Sys2Proof.Machine
end

