-- ==== Sys2Proof/Machine/Shift.lean ====
section
/-! DEFINITION. The shifts and the rotate (40_regop_move_shift_logic.md R120 to R122). Only `cv[4:0]` counts; `C`, `V`, `H` unchanged. -/

namespace Sys2Proof.Machine

/-- `LSL Ra, Rb, Rc` (40_regop_move_shift_logic.md R120). -/
def execLslReg (a b c : Reg) (s : State) : Result State :=
  aluOp lslValue a b (s.reg c) s

/-- `LSL Ra, Rb, #n` (40_regop_move_shift_logic.md R120). -/
def execLslImm (a b : Reg) (v : Bool) (imm : BitVec 16) (s : State) : Result State :=
  aluOp lslValue a b (immValue v imm) s

/-- `ASR Ra, Rb, Rc` (40_regop_move_shift_logic.md R121). -/
def execAsrReg (a b c : Reg) (s : State) : Result State :=
  aluOp asrValue a b (s.reg c) s

/-- `ASR Ra, Rb, #n` (40_regop_move_shift_logic.md R121). -/
def execAsrImm (a b : Reg) (v : Bool) (imm : BitVec 16) (s : State) : Result State :=
  aluOp asrValue a b (immValue v imm) s

/-- `ROR Ra, Rb, Rc` (40_regop_move_shift_logic.md R122). -/
def execRorReg (a b c : Reg) (s : State) : Result State :=
  aluOp rorValue a b (s.reg c) s

/-- `ROR Ra, Rb, #n` (40_regop_move_shift_logic.md R122). -/
def execRorImm (a b : Reg) (v : Bool) (imm : BitVec 16) (s : State) : Result State :=
  aluOp rorValue a b (immValue v imm) s

end Sys2Proof.Machine
end

