-- ==== Sys2Proof/Machine/Dispatch.lean ====
section
/-! DEFINITION. One arm per constructor of Instr, each one call of that instruction's own meaning (30_encoding.md R102,
R103: dispatch by class and selector). -/

namespace Sys2Proof.Machine

def exec (i : Instr) (s : State) : Host.Outcome State Fault Refusal :=
  match i with
  | .movReg a c => Sys2Proof.Machine.execMovReg a c s
  | .movH a => Sys2Proof.Machine.execMovH a s
  | .movFlags a => Sys2Proof.Machine.execMovFlags a s
  | .movImm a v imm => Sys2Proof.Machine.execMovImm a v imm s
  | .movhi a imm => Sys2Proof.Machine.execMovhi a imm s
  | .lslReg a b c => Sys2Proof.Machine.execLslReg a b c s
  | .lslImm a b v imm => Sys2Proof.Machine.execLslImm a b v imm s
  | .asrReg a b c => Sys2Proof.Machine.execAsrReg a b c s
  | .asrImm a b v imm => Sys2Proof.Machine.execAsrImm a b v imm s
  | .rorReg a b c => Sys2Proof.Machine.execRorReg a b c s
  | .rorImm a b v imm => Sys2Proof.Machine.execRorImm a b v imm s
  | .andReg a b c => Sys2Proof.Machine.execAndReg a b c s
  | .andImm a b v imm => Sys2Proof.Machine.execAndImm a b v imm s
  | .annReg a b c => Sys2Proof.Machine.execAnnReg a b c s
  | .annImm a b v imm => Sys2Proof.Machine.execAnnImm a b v imm s
  | .iorReg a b c => Sys2Proof.Machine.execIorReg a b c s
  | .iorImm a b v imm => Sys2Proof.Machine.execIorImm a b v imm s
  | .xorReg a b c => Sys2Proof.Machine.execXorReg a b c s
  | .xorImm a b v imm => Sys2Proof.Machine.execXorImm a b v imm s
  | .addReg a b c => Sys2Proof.Machine.execAddReg a b c s
  | .adcReg a b c => Sys2Proof.Machine.execAdcReg a b c s
  | .addImm a b v imm => Sys2Proof.Machine.execAddImm a b v imm s
  | .adcImm a b v imm => Sys2Proof.Machine.execAdcImm a b v imm s
  | .subReg a b c => Sys2Proof.Machine.execSubReg a b c s
  | .sbcReg a b c => Sys2Proof.Machine.execSbcReg a b c s
  | .subImm a b v imm => Sys2Proof.Machine.execSubImm a b v imm s
  | .sbcImm a b v imm => Sys2Proof.Machine.execSbcImm a b v imm s
  | .mulReg a b c => Sys2Proof.Machine.execMulReg a b c s
  | .umulReg a b c => Sys2Proof.Machine.execUmulReg a b c s
  | .mulImm a b v imm => Sys2Proof.Machine.execMulImm a b v imm s
  | .umulImm a b v imm => Sys2Proof.Machine.execUmulImm a b v imm s
  | .divReg a b c => Sys2Proof.Machine.execDivReg a b c s
  | .udivReg a b c => Sys2Proof.Machine.execUdivReg a b c s
  | .divImm a b v imm => Sys2Proof.Machine.execDivImm a b v imm s
  | .udivImm a b v imm => Sys2Proof.Machine.execUdivImm a b v imm s
  | .fadReg => Sys2Proof.Machine.execFadReg s
  | .fadImm => Sys2Proof.Machine.execFadImm s
  | .fsbReg => Sys2Proof.Machine.execFsbReg s
  | .fsbImm => Sys2Proof.Machine.execFsbImm s
  | .fmlReg => Sys2Proof.Machine.execFmlReg s
  | .fmlImm => Sys2Proof.Machine.execFmlImm s
  | .fdvReg => Sys2Proof.Machine.execFdvReg s
  | .fdvImm => Sys2Proof.Machine.execFdvImm s
  | .ldw a b off => Sys2Proof.Machine.execLdw a b off s
  | .ldb a b off => Sys2Proof.Machine.execLdb a b off s
  | .stw a b off => Sys2Proof.Machine.execStw a b off s
  | .stb a b off => Sys2Proof.Machine.execStb a b off s
  | .bmiInd c => Sys2Proof.Machine.execBmiInd c s
  | .beqInd c => Sys2Proof.Machine.execBeqInd c s
  | .bcsInd c => Sys2Proof.Machine.execBcsInd c s
  | .bvsInd c => Sys2Proof.Machine.execBvsInd c s
  | .blsInd c => Sys2Proof.Machine.execBlsInd c s
  | .bltInd c => Sys2Proof.Machine.execBltInd c s
  | .bleInd c => Sys2Proof.Machine.execBleInd c s
  | .bInd c => Sys2Proof.Machine.execBInd c s
  | .bplInd c => Sys2Proof.Machine.execBplInd c s
  | .bneInd c => Sys2Proof.Machine.execBneInd c s
  | .bccInd c => Sys2Proof.Machine.execBccInd c s
  | .bvcInd c => Sys2Proof.Machine.execBvcInd c s
  | .bhiInd c => Sys2Proof.Machine.execBhiInd c s
  | .bgeInd c => Sys2Proof.Machine.execBgeInd c s
  | .bgtInd c => Sys2Proof.Machine.execBgtInd c s
  | .bnvInd c => Sys2Proof.Machine.execBnvInd c s
  | .blmiInd c => Sys2Proof.Machine.execBlmiInd c s
  | .bleqInd c => Sys2Proof.Machine.execBleqInd c s
  | .blcsInd c => Sys2Proof.Machine.execBlcsInd c s
  | .blvsInd c => Sys2Proof.Machine.execBlvsInd c s
  | .bllsInd c => Sys2Proof.Machine.execBllsInd c s
  | .blltInd c => Sys2Proof.Machine.execBlltInd c s
  | .blleInd c => Sys2Proof.Machine.execBlleInd c s
  | .blInd c => Sys2Proof.Machine.execBlInd c s
  | .blplInd c => Sys2Proof.Machine.execBlplInd c s
  | .blneInd c => Sys2Proof.Machine.execBlneInd c s
  | .blccInd c => Sys2Proof.Machine.execBlccInd c s
  | .blvcInd c => Sys2Proof.Machine.execBlvcInd c s
  | .blhiInd c => Sys2Proof.Machine.execBlhiInd c s
  | .blgeInd c => Sys2Proof.Machine.execBlgeInd c s
  | .blgtInd c => Sys2Proof.Machine.execBlgtInd c s
  | .blnvInd c => Sys2Proof.Machine.execBlnvInd c s
  | .bmiRel off => Sys2Proof.Machine.execBmiRel off s
  | .beqRel off => Sys2Proof.Machine.execBeqRel off s
  | .bcsRel off => Sys2Proof.Machine.execBcsRel off s
  | .bvsRel off => Sys2Proof.Machine.execBvsRel off s
  | .blsRel off => Sys2Proof.Machine.execBlsRel off s
  | .bltRel off => Sys2Proof.Machine.execBltRel off s
  | .bleRel off => Sys2Proof.Machine.execBleRel off s
  | .bRel off => Sys2Proof.Machine.execBRel off s
  | .bplRel off => Sys2Proof.Machine.execBplRel off s
  | .bneRel off => Sys2Proof.Machine.execBneRel off s
  | .bccRel off => Sys2Proof.Machine.execBccRel off s
  | .bvcRel off => Sys2Proof.Machine.execBvcRel off s
  | .bhiRel off => Sys2Proof.Machine.execBhiRel off s
  | .bgeRel off => Sys2Proof.Machine.execBgeRel off s
  | .bgtRel off => Sys2Proof.Machine.execBgtRel off s
  | .bnvRel off => Sys2Proof.Machine.execBnvRel off s
  | .blmiRel off => Sys2Proof.Machine.execBlmiRel off s
  | .bleqRel off => Sys2Proof.Machine.execBleqRel off s
  | .blcsRel off => Sys2Proof.Machine.execBlcsRel off s
  | .blvsRel off => Sys2Proof.Machine.execBlvsRel off s
  | .bllsRel off => Sys2Proof.Machine.execBllsRel off s
  | .blltRel off => Sys2Proof.Machine.execBlltRel off s
  | .blleRel off => Sys2Proof.Machine.execBlleRel off s
  | .blRel off => Sys2Proof.Machine.execBlRel off s
  | .blplRel off => Sys2Proof.Machine.execBlplRel off s
  | .blneRel off => Sys2Proof.Machine.execBlneRel off s
  | .blccRel off => Sys2Proof.Machine.execBlccRel off s
  | .blvcRel off => Sys2Proof.Machine.execBlvcRel off s
  | .blhiRel off => Sys2Proof.Machine.execBlhiRel off s
  | .blgeRel off => Sys2Proof.Machine.execBlgeRel off s
  | .blgtRel off => Sys2Proof.Machine.execBlgtRel off s
  | .blnvRel off => Sys2Proof.Machine.execBlnvRel off s

end Sys2Proof.Machine
end

