-- ==== Sys2Proof/Machine/Step.lean ====
section
/-! DEFINITION. One step: one turn of the Builder's loop with the instruction's effect applied at once, the
instruction-precise reading the spec fixes for a model (60_exceptions.md R272; 44_unit_builder.md R245; logs 5, 6, 7). -/

namespace Sys2Proof.Machine

/-- Run the fetched word `w` in a state whose unit is open, count it, and return the unit if that closed it
(44_unit_builder.md R222, R225). A signal or refusal of the instruction is the step's. -/
def runWord (w : Word) (s : State) : Result State :=
  bindResult (exec (decodeWord w) s) fun t => .next (t.setBuilder (s.builder.count w)).returnUnit

/-- One step (44_unit_builder.md R222, R225; order of tests 60_exceptions.md R269): open a unit if none is; a breakpoint
at `pc` closes it with nothing fetched (R231); else fetch, decode, execute and count. A unit that closes is returned and
the Builder is Idle again, so between steps it is Idle or Open. -/
def step (s : State) : Host.Outcome State Fault Refusal :=
  let s0 := s.openUnit
  if s0.breakpointAt s0.pc then .next (s0.setBuilder s0.builder.closeBreakpoint).returnUnit
  else match s0.fetch s0.pc with
    | none => raise (.memoryFault .fetch s0.pc s0.pc)
    | some w => runWord w s0

/-- `s` with the instruction of bits `w` placed where the next step fetches: its four bytes in the fetch mapping at `pc`,
and no breakpoint there. A `pc` that is no multiple of 4 cannot be fetched at (20_memory.md R57), so it is aligned down
first (log 22). -/
def State.withFetchWord (s : State) (nbits w : Nat) : State :=
  let word : Word := BitVec.ofNat 32 (w % 2 ^ nbits)
  let a := s.pc &&& 0xFFFFFFFC
  { s with
    pc := a
    fetchMap := s.fetchMap.writeWord a word
    breakpoints := s.breakpoints.filter (fun p => p != a) }

end Sys2Proof.Machine
end

