-- ==== Sys2Proof/Machine/Dump.lean ====
section
/-! DEFINITION. The register dump (60_exceptions.md R285): the block's existing observable debug contract, as values. It
reads state and changes none; number base, widths and labels are not given and are not modelled (log 19). -/

namespace Sys2Proof.Machine

/-- What the dump prints: rows of four general registers, the non-general slots the source names, and the summary line
of the flags `C V N Z I` as integers. -/
structure RegisterDump where
  rows : List (List Word)
  slots : List Word
  flags : List Nat
deriving DecidableEq, Repr

/-- The dump of a state (60_exceptions.md R285). -/
def State.dump (s : State) : RegisterDump where
  rows := [[s.reg 0, s.reg 1, s.reg 2, s.reg 3], [s.reg 4, s.reg 5, s.reg 6, s.reg 7],
           [s.reg 8, s.reg 9, s.reg 10, s.reg 11], [s.reg 12, s.reg 13, s.reg 14, s.reg 15]]
  slots := [s.H, s.pc]
  flags := [s.C.toNat, s.V.toNat, s.N.toNat, s.Z.toNat, s.I.toNat]

end Sys2Proof.Machine
end

