-- ==== Sys2Proof/Machine/Emit.lean ====
section
/-! DEFINITION. The emitted operations (44_unit_builder.md R240): what each translator hands to the backend for one
instruction, a function of the word and its address only (30_encoding.md R104; 10_state.md R33), and what applying them
does. The four kinds are the spec's; the expressions are the model's own (decision D27; log 17). -/

namespace Sys2Proof.Machine

/-- The arithmetic an expression can ask for; `carry` says that the Carry flag takes part, `uns` that the operands are
read as unsigned. -/
inductive BinOp where
  | lsl | asr | ror | and | ann | ior | xor
  | add (carry : Bool) | sub (carry : Bool)
  | mulLow (uns : Bool) | mulHigh (uns : Bool)
  | quot (uns : Bool) | rem (uns : Bool)
deriving DecidableEq, Repr

/-- A 32-bit expression over the state before the instruction; `loaded` is the value its memory access read. -/
inductive Expr where
  | lit (w : Word)
  | reg (i : Reg)
  | high
  | packed
  | loaded
  | bin (op : BinOp) (x y : Expr)
deriving DecidableEq, Repr

/-- A flag expression: of a result `d` and the operands `b`, `c` (10_state.md R27). -/
inductive FlagExpr where
  | zero (d : Expr)
  | negative (d : Expr)
  | addCarry (d b : Expr)
  | addOverflow (d b c : Expr)
  | subCarry (d b : Expr)
  | subOverflow (d b c : Expr)
deriving DecidableEq, Repr

/-- The flags an operation can write. -/
inductive FlagName where
  | N | Z | C | V
deriving DecidableEq, Repr

/-- When a write happens: always, or on the taken path of a branch (43_branch_ops.md R191, R196). -/
inductive Guard where
  | always
  | taken (cc : Cond)
deriving DecidableEq, Repr

/-- The width of a memory access (20_memory.md R53). -/
inductive Width where
  | byte | word
deriving DecidableEq, Repr

/-- One emitted operation (44_unit_builder.md R240). -/
inductive Operation where
  | regWrite (guard : Guard) (r : Reg) (value : Expr)
  | highWrite (value : Expr)
  | flagWrite (guard : Guard) (f : FlagName) (value : FlagExpr)
  | memRead (width : Width) (ea : Expr)
  | memWrite (width : Width) (ea value : Expr)
  | transfer (target : Expr)
  | transferIf (cc : Cond) (target otherwise : Expr)
deriving DecidableEq, Repr

/-- The four kinds of the source (44_unit_builder.md R240). -/
inductive OpKind where
  | registerWrite | flagWrite | memoryAccess | controlTransfer
deriving DecidableEq, Repr

/-- The kind of an operation. -/
def Operation.kind : Operation → OpKind
  | .regWrite .. => .registerWrite
  | .highWrite .. => .registerWrite
  | .flagWrite .. => .flagWrite
  | .memRead .. => .memoryAccess
  | .memWrite .. => .memoryAccess
  | .transfer .. => .controlTransfer
  | .transferIf .. => .controlTransfer

/-! ### Applying operations -/

/-- The value of a binary operation with Carry flag `cin`. -/
def BinOp.value (op : BinOp) (cin : Bool) (x y : Word) : Word :=
  match op with
  | .lsl => lslValue x y
  | .asr => asrValue x y
  | .ror => rorValue x y
  | .and => andValue x y
  | .ann => annValue x y
  | .ior => iorValue x y
  | .xor => xorValue x y
  | .add carry => addValue x y (carry && cin)
  | .sub carry => subValue x y (carry && cin)
  | .mulLow uns => lowHalf (product uns x y)
  | .mulHigh uns => highHalf (product uns x y)
  | .quot uns => quotient uns x y
  | .rem uns => remainder uns x y

/-- The signal a binary operation raises when it is applied: a divide's (44_unit_builder.md R232; 90_conflicts.md C8). -/
def BinOp.signal (op : BinOp) (policy : DivOverflow) (x y a0 : Word) : Option Fault :=
  match op with
  | .quot uns => divideSignal policy uns x y a0
  | .rem uns => divideSignal policy uns x y a0
  | _ => none

/-- The value of an expression in the state before the instruction, `mem` being what its memory access read. -/
def Expr.eval (s : State) (mem : Word) : Expr → Except Fault Word
  | .lit w => .ok w
  | .reg i => .ok (s.reg i)
  | .high => .ok s.H
  | .packed => .ok (packFlags s.N s.Z s.C s.V s.cfg.flagpackShift.val)
  | .loaded => .ok mem
  | .bin op x y =>
    match x.eval s mem, y.eval s mem with
    | .ok xv, .ok yv =>
      match op.signal s.cfg.divOverflow xv yv s.pc with
      | some signal => .error signal
      | none => .ok (op.value s.C xv yv)
    | .error signal, _ => .error signal
    | _, .error signal => .error signal

/-- The value of a flag expression of one, two or three evaluated expressions. -/
def FlagExpr.eval (s : State) (mem : Word) : FlagExpr → Except Fault Bool
  | .zero d => (d.eval s mem).map zeroFlag
  | .negative d => (d.eval s mem).map negativeFlag
  | .addCarry d b => do return Machine.addCarry (← d.eval s mem) (← b.eval s mem)
  | .addOverflow d b c => do return Machine.addOverflow (← d.eval s mem) (← b.eval s mem) (← c.eval s mem)
  | .subCarry d b => do return Machine.subCarry (← d.eval s mem) (← b.eval s mem)
  | .subOverflow d b c => do return Machine.subOverflow (← d.eval s mem) (← b.eval s mem) (← c.eval s mem)

/-- Whether a guarded write happens, by the flags before the instruction. -/
def Guard.holds (s : State) : Guard → Bool
  | .always => true
  | .taken cc => s.taken cc

/-- `f <- v` for one flag. -/
def State.setFlag (s : State) (f : FlagName) (v : Bool) : State :=
  match f with
  | .N => { s with N := v }
  | .Z => { s with Z := v }
  | .C => { s with C := v }
  | .V => { s with V := v }

/-- An evaluated expression as a result: evaluation can only raise. -/
def raising {α : Type} : Except Fault α → Result α
  | .ok a => .next a
  | .error signal => .fault signal

/-- Apply one operation: evaluate it in `s`, the state before the instruction, and write into `t`, the state built so
far; `mem` is what the memory access read (40_regop_move_shift_logic.md R112; 44_unit_builder.md R240). -/
def Operation.apply (s : State) (op : Operation) (acc : State × Word) : Result (State × Word) :=
  let (t, mem) := acc
  match op with
  | .regWrite g r e => bindResult (raising (e.eval s mem)) fun d => .next (if g.holds s then t.setReg r d else t, mem)
  | .highWrite e => bindResult (raising (e.eval s mem)) fun d => .next (t.setH d, mem)
  | .flagWrite g f e => bindResult (raising (e.eval s mem)) fun v => .next (if g.holds s then t.setFlag f v else t, mem)
  | .memRead width ea => bindResult (raising (ea.eval s mem)) fun a =>
      match (match width with | .byte => s.memReadByte a | .word => s.memReadWord a) with
      | some d => .next (t, d)
      | none => .fault (.memoryFault .load a s.pc)
  | .memWrite width ea e => bindResult (raising (ea.eval s mem)) fun a =>
      bindResult (raising (e.eval s mem)) fun d =>
      bindResult (match width with | .byte => s.memWriteByte a (field d 0 8) | .word => s.memWriteWord a d) fun m =>
        .next (t.setMem m, mem)
  | .transfer e => bindResult (raising (e.eval s mem)) fun a => .next (t.setPc a, mem)
  | .transferIf cc e otherwise => bindResult (raising (e.eval s mem)) fun a =>
      bindResult (raising (otherwise.eval s mem)) fun a' => .next (t.setPc (if s.taken cc then a else a'), mem)

/-- Apply the operations of one instruction in order, all evaluated in `s`. -/
def applyFrom (s : State) : List Operation → State × Word → Result State
  | [], acc => .next acc.1
  | op :: ops, acc => bindResult (op.apply s acc) (applyFrom s ops)

/-- Apply the operations of one instruction (44_unit_builder.md R240). -/
def applyOps (ops : List Operation) (s : State) : Result State := applyFrom s ops (s, 0#32)

/-! ### The translators -/

/-- The C-value of the IMM format as a constant (30_encoding.md R87). -/
def immExpr (v : Bool) (imm : BitVec 16) : Expr := .lit (immValue v imm)

/-- The operations of a register-class instruction with result `d` (40_regop_move_shift_logic.md R110, R113): `pc` on,
then the destination and `Z`, `N`. -/
def destOps (a0 : Word) (a : Reg) (d : Expr) : List Operation :=
  [.transfer (.lit (a0 + 4#32)), .regWrite .always a d, .flagWrite .always .Z (.zero d), .flagWrite .always .N (.negative d)]

/-- The operations of ADD and ADC (41_regop_arith.md R140 to R142). -/
def addOps (carry : Bool) (a0 : Word) (a b : Reg) (cv : Expr) : List Operation :=
  let d : Expr := .bin (.add carry) (.reg b) cv
  destOps a0 a d ++ [.flagWrite .always .C (.addCarry d (.reg b)), .flagWrite .always .V (.addOverflow d (.reg b) cv)]

/-- The operations of SUB and SBC (41_regop_arith.md R144 to R146). -/
def subOps (carry : Bool) (a0 : Word) (a b : Reg) (cv : Expr) : List Operation :=
  let d : Expr := .bin (.sub carry) (.reg b) cv
  destOps a0 a d ++ [.flagWrite .always .C (.subCarry d (.reg b)), .flagWrite .always .V (.subOverflow d (.reg b) cv)]

/-- The operations of MUL and UMUL (41_regop_arith.md R148, R149). -/
def mulOps (uns : Bool) (a0 : Word) (a b : Reg) (cv : Expr) : List Operation :=
  destOps a0 a (.bin (.mulLow uns) (.reg b) cv) ++ [.highWrite (.bin (.mulHigh uns) (.reg b) cv)]

/-- The operations of DIV and UDIV (41_regop_arith.md R150, R151). -/
def divOps (uns : Bool) (a0 : Word) (a b : Reg) (cv : Expr) : List Operation :=
  destOps a0 a (.bin (.quot uns) (.reg b) cv) ++ [.highWrite (.bin (.rem uns) (.reg b) cv)]

/-- The effective address as an expression (42_memory_ops.md R170). -/
def eaExpr (b : Reg) (off : BitVec 20) : Expr := .bin (.add false) (.reg b) (.lit (off.signExtend 32))

/-- The operations of a load: one access, then as a register-class result (42_memory_ops.md R171, R172, R175). -/
def loadOps (width : Width) (a0 : Word) (a b : Reg) (off : BitVec 20) : List Operation :=
  .memRead width (eaExpr b off) :: destOps a0 a .loaded

/-- The operations of a store (42_memory_ops.md R173, R174, R175). -/
def storeOps (width : Width) (a0 : Word) (a b : Reg) (off : BitVec 20) : List Operation :=
  [.memWrite width (eaExpr b off) (.reg a), .transfer (.lit (a0 + 4#32))]

/-- The link write of a branch at `a0` under a guard (43_branch_ops.md R196). -/
def linkOps (g : Guard) (a0 : Word) : List Operation :=
  let next : Expr := .lit (a0 + 4#32)
  [.regWrite g linkReg next, .flagWrite g .Z (.zero next), .flagWrite g .N (.negative next)]

/-- The operations of a branch (43_branch_ops.md R191, R193, R196): the link write on the taken path (on both under
LINK_WRITE_WHEN_NOT_TAKEN), then the conditional transfer. -/
def branchOps (cfg : Config) (link : Bool) (cc : Cond) (a0 : Word) (target : Expr) : List Operation :=
  (if link then linkOps (if cfg.linkWriteWhenNotTaken then .always else .taken cc) a0 else [])
    ++ [.transferIf cc target (.lit (a0 + 4#32))]

/-- The pc-relative target as a constant (43_branch_ops.md R193). -/
def relExpr (a0 : Word) (off : BitVec 24) : Expr := .lit (a0 + 4#32 + displacement off)

/-- What the translators emit for the instruction at `a0` (44_unit_builder.md R225, R240), or the signal of a
floating-point placeholder (R232). -/
def emit (cfg : Config) (a0 : Word) : Instr → Except Fault (List Operation)
  | .movReg a c => .ok (destOps a0 a (.reg c))
  | .movH a => .ok (destOps a0 a .high)
  | .movFlags a => .ok (destOps a0 a .packed)
  | .movImm a v imm => .ok (destOps a0 a (immExpr v imm))
  | .movhi a imm => .ok (destOps a0 a (.lit (put imm 16)))
  | .lslReg a b c => .ok (destOps a0 a (.bin .lsl (.reg b) (.reg c)))
  | .lslImm a b v imm => .ok (destOps a0 a (.bin .lsl (.reg b) (immExpr v imm)))
  | .asrReg a b c => .ok (destOps a0 a (.bin .asr (.reg b) (.reg c)))
  | .asrImm a b v imm => .ok (destOps a0 a (.bin .asr (.reg b) (immExpr v imm)))
  | .rorReg a b c => .ok (destOps a0 a (.bin .ror (.reg b) (.reg c)))
  | .rorImm a b v imm => .ok (destOps a0 a (.bin .ror (.reg b) (immExpr v imm)))
  | .andReg a b c => .ok (destOps a0 a (.bin .and (.reg b) (.reg c)))
  | .andImm a b v imm => .ok (destOps a0 a (.bin .and (.reg b) (immExpr v imm)))
  | .annReg a b c => .ok (destOps a0 a (.bin .ann (.reg b) (.reg c)))
  | .annImm a b v imm => .ok (destOps a0 a (.bin .ann (.reg b) (immExpr v imm)))
  | .iorReg a b c => .ok (destOps a0 a (.bin .ior (.reg b) (.reg c)))
  | .iorImm a b v imm => .ok (destOps a0 a (.bin .ior (.reg b) (immExpr v imm)))
  | .xorReg a b c => .ok (destOps a0 a (.bin .xor (.reg b) (.reg c)))
  | .xorImm a b v imm => .ok (destOps a0 a (.bin .xor (.reg b) (immExpr v imm)))
  | .addReg a b c => .ok (addOps false a0 a b (.reg c))
  | .adcReg a b c => .ok (addOps true a0 a b (.reg c))
  | .addImm a b v imm => .ok (addOps false a0 a b (immExpr v imm))
  | .adcImm a b v imm => .ok (addOps true a0 a b (immExpr v imm))
  | .subReg a b c => .ok (subOps false a0 a b (.reg c))
  | .sbcReg a b c => .ok (subOps true a0 a b (.reg c))
  | .subImm a b v imm => .ok (subOps false a0 a b (immExpr v imm))
  | .sbcImm a b v imm => .ok (subOps true a0 a b (immExpr v imm))
  | .mulReg a b c => .ok (mulOps false a0 a b (.reg c))
  | .umulReg a b c => .ok (mulOps true a0 a b (.reg c))
  | .mulImm a b v imm => .ok (mulOps false a0 a b (immExpr v imm))
  | .umulImm a b v imm => .ok (mulOps true a0 a b (immExpr v imm))
  | .divReg a b c => .ok (divOps false a0 a b (.reg c))
  | .udivReg a b c => .ok (divOps true a0 a b (.reg c))
  | .divImm a b v imm => .ok (divOps false a0 a b (immExpr v imm))
  | .udivImm a b v imm => .ok (divOps true a0 a b (immExpr v imm))
  | .fadReg => .error (.unsupportedOperation a0)
  | .fadImm => .error (.unsupportedOperation a0)
  | .fsbReg => .error (.unsupportedOperation a0)
  | .fsbImm => .error (.unsupportedOperation a0)
  | .fmlReg => .error (.unsupportedOperation a0)
  | .fmlImm => .error (.unsupportedOperation a0)
  | .fdvReg => .error (.unsupportedOperation a0)
  | .fdvImm => .error (.unsupportedOperation a0)
  | .ldw a b off => .ok (loadOps .word a0 a b off)
  | .ldb a b off => .ok (loadOps .byte a0 a b off)
  | .stw a b off => .ok (storeOps .word a0 a b off)
  | .stb a b off => .ok (storeOps .byte a0 a b off)
  | .bmiInd c => .ok (branchOps cfg false .mi a0 (.reg c))
  | .beqInd c => .ok (branchOps cfg false .eq a0 (.reg c))
  | .bcsInd c => .ok (branchOps cfg false .cs a0 (.reg c))
  | .bvsInd c => .ok (branchOps cfg false .vs a0 (.reg c))
  | .blsInd c => .ok (branchOps cfg false .ls a0 (.reg c))
  | .bltInd c => .ok (branchOps cfg false .lt a0 (.reg c))
  | .bleInd c => .ok (branchOps cfg false .le a0 (.reg c))
  | .bInd c => .ok (branchOps cfg false .al a0 (.reg c))
  | .bplInd c => .ok (branchOps cfg false .pl a0 (.reg c))
  | .bneInd c => .ok (branchOps cfg false .ne a0 (.reg c))
  | .bccInd c => .ok (branchOps cfg false .cc a0 (.reg c))
  | .bvcInd c => .ok (branchOps cfg false .vc a0 (.reg c))
  | .bhiInd c => .ok (branchOps cfg false .hi a0 (.reg c))
  | .bgeInd c => .ok (branchOps cfg false .ge a0 (.reg c))
  | .bgtInd c => .ok (branchOps cfg false .gt a0 (.reg c))
  | .bnvInd c => .ok (branchOps cfg false .nv a0 (.reg c))
  | .blmiInd c => .ok (branchOps cfg true .mi a0 (.reg c))
  | .bleqInd c => .ok (branchOps cfg true .eq a0 (.reg c))
  | .blcsInd c => .ok (branchOps cfg true .cs a0 (.reg c))
  | .blvsInd c => .ok (branchOps cfg true .vs a0 (.reg c))
  | .bllsInd c => .ok (branchOps cfg true .ls a0 (.reg c))
  | .blltInd c => .ok (branchOps cfg true .lt a0 (.reg c))
  | .blleInd c => .ok (branchOps cfg true .le a0 (.reg c))
  | .blInd c => .ok (branchOps cfg true .al a0 (.reg c))
  | .blplInd c => .ok (branchOps cfg true .pl a0 (.reg c))
  | .blneInd c => .ok (branchOps cfg true .ne a0 (.reg c))
  | .blccInd c => .ok (branchOps cfg true .cc a0 (.reg c))
  | .blvcInd c => .ok (branchOps cfg true .vc a0 (.reg c))
  | .blhiInd c => .ok (branchOps cfg true .hi a0 (.reg c))
  | .blgeInd c => .ok (branchOps cfg true .ge a0 (.reg c))
  | .blgtInd c => .ok (branchOps cfg true .gt a0 (.reg c))
  | .blnvInd c => .ok (branchOps cfg true .nv a0 (.reg c))
  | .bmiRel off => .ok (branchOps cfg false .mi a0 (relExpr a0 off))
  | .beqRel off => .ok (branchOps cfg false .eq a0 (relExpr a0 off))
  | .bcsRel off => .ok (branchOps cfg false .cs a0 (relExpr a0 off))
  | .bvsRel off => .ok (branchOps cfg false .vs a0 (relExpr a0 off))
  | .blsRel off => .ok (branchOps cfg false .ls a0 (relExpr a0 off))
  | .bltRel off => .ok (branchOps cfg false .lt a0 (relExpr a0 off))
  | .bleRel off => .ok (branchOps cfg false .le a0 (relExpr a0 off))
  | .bRel off => .ok (branchOps cfg false .al a0 (relExpr a0 off))
  | .bplRel off => .ok (branchOps cfg false .pl a0 (relExpr a0 off))
  | .bneRel off => .ok (branchOps cfg false .ne a0 (relExpr a0 off))
  | .bccRel off => .ok (branchOps cfg false .cc a0 (relExpr a0 off))
  | .bvcRel off => .ok (branchOps cfg false .vc a0 (relExpr a0 off))
  | .bhiRel off => .ok (branchOps cfg false .hi a0 (relExpr a0 off))
  | .bgeRel off => .ok (branchOps cfg false .ge a0 (relExpr a0 off))
  | .bgtRel off => .ok (branchOps cfg false .gt a0 (relExpr a0 off))
  | .bnvRel off => .ok (branchOps cfg false .nv a0 (relExpr a0 off))
  | .blmiRel off => .ok (branchOps cfg true .mi a0 (relExpr a0 off))
  | .bleqRel off => .ok (branchOps cfg true .eq a0 (relExpr a0 off))
  | .blcsRel off => .ok (branchOps cfg true .cs a0 (relExpr a0 off))
  | .blvsRel off => .ok (branchOps cfg true .vs a0 (relExpr a0 off))
  | .bllsRel off => .ok (branchOps cfg true .ls a0 (relExpr a0 off))
  | .blltRel off => .ok (branchOps cfg true .lt a0 (relExpr a0 off))
  | .blleRel off => .ok (branchOps cfg true .le a0 (relExpr a0 off))
  | .blRel off => .ok (branchOps cfg true .al a0 (relExpr a0 off))
  | .blplRel off => .ok (branchOps cfg true .pl a0 (relExpr a0 off))
  | .blneRel off => .ok (branchOps cfg true .ne a0 (relExpr a0 off))
  | .blccRel off => .ok (branchOps cfg true .cc a0 (relExpr a0 off))
  | .blvcRel off => .ok (branchOps cfg true .vc a0 (relExpr a0 off))
  | .blhiRel off => .ok (branchOps cfg true .hi a0 (relExpr a0 off))
  | .blgeRel off => .ok (branchOps cfg true .ge a0 (relExpr a0 off))
  | .blgtRel off => .ok (branchOps cfg true .gt a0 (relExpr a0 off))
  | .blnvRel off => .ok (branchOps cfg true .nv a0 (relExpr a0 off))

end Sys2Proof.Machine
end

