-- ==== Sys2Proof/Machine/TranslationUnit.lean ====
section
/-! DEFINITION. One whole invocation of the Builder (44_unit_builder.md R225): it fetches, translates and closes one
unit without running it, and answers the unit (R241) or the error (R243). Running a unit applies its operations in
order. The step (Machine/Step.lean) does the same one instruction at a time; R245 says the two agree. -/

namespace Sys2Proof.Machine

/-- A closed unit (44_unit_builder.md R241): the operations of its `n` instructions, one list each, and the
continuation of R230 as one more list when the reason is FallthroughCap. -/
structure TranslationUnit where
  start : Word
  n : Nat
  operations : List (List Operation)
  exit : ExitDescriptor
deriving DecidableEq, Repr

/-- What an invocation returns: exactly one of a unit and an error (44_unit_builder.md R221, R243). -/
inductive BuildResult where
  | unit (u : TranslationUnit) (reason : CloseReason)
  | error (signal : Fault)
deriving DecidableEq, Repr

/-- The loop of R225 from the Builder state `b` with the operations `done` emitted so far, at most `fuel` turns. It reads
the fetch mapping, the breakpoints and the parameters of `s`, and no register, flag or data memory (44_unit_builder.md
R244). -/
def buildLoop (s : State) : Nat → Builder → List (List Operation) → Builder × List (List Operation)
  | 0, b, done => (b, done)
  | fuel + 1, b, done =>
    if s.breakpointAt b.cur then (b.closeBreakpoint, done)
    else match s.fetch b.cur with
      | none => (b.abort (.memoryFault .fetch b.cur b.cur), done)
      | some w =>
        match emit s.cfg b.cur (decodeWord w) with
        | .error signal => (b.abort signal, done)
        | .ok ops =>
          match (b.count w).phase with
          | .opened => buildLoop s fuel (b.count w) (done ++ [ops])
          | .closed .fallthroughCap => (b.count w, done ++ [ops] ++ [[.transfer (.lit (b.count w).cur)]])
          | _ => (b.count w, done ++ [ops])

/-- The Builder and the operations after the loop of an invocation at `start` with cap `maxInsns`; `max + 1` turns are
enough (44_unit_builder.md R221). -/
def buildRun (s : State) (start : Word) (maxInsns : Nat) : Builder × List (List Operation) :=
  let b := Builder.invoke s.cfg start maxInsns
  buildLoop s (b.max + 1) b []

/-- `Build(start, MAX_INSNS)` (44_unit_builder.md R225, R241, R243). -/
def build (s : State) (start : Word) (maxInsns : Nat) : BuildResult :=
  let (b, ops) := buildRun s start maxInsns
  match b.phase, b.exit with
  | .closed (.aborted signal), _ => .error signal
  | .closed reason, some exit => .unit ⟨b.start, b.n, ops, exit⟩ reason
  | _, _ => .error (.memoryFault .fetch b.cur b.cur)   -- the loop always closes (R221): no invocation answers this

/-- Apply the operation lists of a unit one after another, each as one instruction (44_unit_builder.md R240). A signal
aborts the unit there (R232). -/
def runOperations : List (List Operation) → State → Result State
  | [], s => .next s
  | ops :: rest, s => bindResult (applyOps ops s) (runOperations rest)

end Sys2Proof.Machine
end

