-- ==== Sys2Proof/Safety.lean ====
section
/-! DEFINITION. The terms in which claims about the machine are stated: how a run ends (70_reset_and_hazards.md R303),
what an instruction leaves unchanged, the Builder's invariant (44_unit_builder.md R234), and what is left of a state when
the unit boundaries are forgotten (R245). -/

namespace Sys2Proof.Machine

/-! ### How a run ends -/

/-- The run has ended normally: the Builder reports BreakpointHit (70_reset_and_hazards.md R303; 60_exceptions.md R264). -/
def State.endedNormally (s : State) : Bool := s.returned.any fun u => u.reason == .breakpointHit

/-- The signal an outcome raises, if it does (60_exceptions.md R265). -/
def signalOf {σ : Type} : Result σ → Option Fault
  | .fault signal => some signal
  | _ => none

/-- `k` steps from `s` raise no error signal: the premise the spec asks of claims about a run (60_exceptions.md R272). -/
def NoSignal (k : Nat) (s : State) : Prop := signalOf (core.run k s) = none

/-- Apply a function to the state of a next outcome. -/
def mapNext {σ τ : Type} (f : σ → τ) : Result σ → Result τ
  | .next s => .next (f s)
  | .fault signal => .fault signal
  | .refused reason => .refused reason

/-! ### Frames -/

/-- Every byte of data memory reads as before. -/
def SameMemory (s t : State) : Prop := ∀ a : Word, t.mem.get a = s.mem.get a

/-- Every byte of data memory outside the `len` bytes at `ea` (modulo 2^32) reads as before. -/
def SameMemoryOutside (ea : Word) (len : Nat) (s t : State) : Prop :=
  ∀ a : Word, (∀ k < len, a ≠ ea + BitVec.ofNat 32 k) → t.mem.get a = s.mem.get a

/-- Every general register but `a` holds what it held. -/
def SameRegsBut (a : Reg) (s t : State) : Prop := ∀ r, r ≠ a → t.reg r = s.reg r

/-- Every general register holds what it held. -/
def SameRegs (s t : State) : Prop := ∀ r, t.reg r = s.reg r

/-- The four condition flags hold what they held. -/
def SameFlags (s t : State) : Prop := t.N = s.N ∧ t.Z = s.Z ∧ t.C = s.C ∧ t.V = s.V

/-- What no instruction's own effect touches: `I`, the fetch mapping, the breakpoints, the parameters, the Builder and its
output. -/
def SameSurround (s t : State) : Prop :=
  t.I = s.I ∧ t.fetchMap = s.fetchMap ∧ t.breakpoints = s.breakpoints ∧ t.maxInsns = s.maxInsns ∧ t.cfg = s.cfg
    ∧ t.builder = s.builder ∧ t.returned = s.returned

/-- The common effect of a register-class instruction or a load with destination `a` and value `d`: `x[a]`, `Z`, `N` and
`pc` as given, every other register, all of memory and the surround as before (40_regop_move_shift_logic.md R113, R127). -/
def WritesDest (a : Reg) (d : Word) (s t : State) : Prop :=
  t.reg a = d ∧ t.Z = decide (d = 0) ∧ t.N = d.msb ∧ t.pc = s.pc + 4#32
    ∧ SameRegsBut a s t ∧ SameMemory s t ∧ SameSurround s t

/-- `H`, `C` and `V` hold what they held (40_regop_move_shift_logic.md R127). -/
def KeepsHCV (s t : State) : Prop := t.H = s.H ∧ t.C = s.C ∧ t.V = s.V

/-- The instruction completes in `s`, and `P` holds of the state it leaves. -/
def Completes (i : Instr) (s : State) (P : State → Prop) : Prop := ∃ t, exec i s = .next t ∧ P t

/-- The number an immediate stands for: signed when `v` is 1, unsigned when it is 0 (30_encoding.md R87). -/
def immNumber (v : Bool) (imm : BitVec 16) : Int := if v then imm.toInt else (imm.toNat : Int)

/-! ### Arithmetic -/

/-- The whole effect of an addition of `bv`, `cv` and `cin` (41_regop_arith.md R140 to R142): the sum modulo 2^32, `C` by the
test against `bv`, `V` set exactly when `bv` and `cv` have one sign and the sum the other. -/
def AddEffect (cin : Nat) (a : Reg) (bv cv : Word) (s t : State) : Prop :=
  let d : Word := BitVec.ofNat 32 (bv.toNat + cv.toNat + cin)
  WritesDest a d s t ∧ t.H = s.H ∧ t.C = decide (d.toNat < bv.toNat) ∧ (t.V = true ↔ bv.msb = cv.msb ∧ d.msb ≠ bv.msb)

/-- The whole effect of a subtraction of `cv` and `cin` from `bv` (41_regop_arith.md R144 to R146): the difference modulo
2^32, `C` by the test against `bv`, `V` set exactly when `bv` and `cv` differ in sign and the difference has that of `cv`. -/
def SubEffect (cin : Nat) (a : Reg) (bv cv : Word) (s t : State) : Prop :=
  let d : Word := BitVec.ofInt 32 ((bv.toNat : Int) - cv.toNat - cin)
  WritesDest a d s t ∧ t.H = s.H ∧ t.C = decide (bv.toNat < d.toNat) ∧ (t.V = true ↔ bv.msb ≠ cv.msb ∧ d.msb = cv.msb)

/-- The whole effect of a signed divide of `bv` by `cv` (41_regop_arith.md R150, R152): the identity, a remainder smaller
than the divisor, and zero or of the dividend's sign; these three determine both results. -/
def SignedDivideEffect (a : Reg) (bv cv : Word) (s t : State) : Prop :=
  WritesDest a (t.reg a) s t ∧ t.C = s.C ∧ t.V = s.V
    ∧ bv.toInt = cv.toInt * (t.reg a).toInt + t.H.toInt ∧ t.H.toInt.natAbs < cv.toInt.natAbs
    ∧ (t.H = 0 ∨ (t.H.toInt < 0 ↔ bv.toInt < 0))

/-- The whole effect of an unsigned divide of `bv` by `cv` (41_regop_arith.md R151). -/
def UnsignedDivideEffect (a : Reg) (bv cv : Word) (s t : State) : Prop :=
  WritesDest a (t.reg a) s t ∧ t.C = s.C ∧ t.V = s.V
    ∧ bv.toNat = cv.toNat * (t.reg a).toNat + t.H.toNat ∧ t.H.toNat < cv.toNat

/-! ### Branches -/

/-- The `taken iff` column of the condition table, by condition number (43_branch_ops.md R192). -/
def takenByTable (cc : Nat) (s : State) : Prop :=
  match cc with
  | 0 => s.N = true
  | 1 => s.Z = true
  | 2 => s.C = true
  | 3 => s.V = true
  | 4 => s.C = true ∨ s.Z = true
  | 5 => s.N ≠ s.V
  | 6 => s.N ≠ s.V ∨ s.Z = true
  | 7 => True
  | 8 => s.N = false
  | 9 => s.Z = false
  | 10 => s.C = false
  | 11 => s.V = false
  | 12 => s.C = false ∧ s.Z = false
  | 13 => s.N = s.V
  | 14 => s.N = s.V ∧ s.Z = false
  | _ => False

/-- The register-indirect branches: the instruction, its link flag and its condition number (30_encoding.md R102). -/
def indirectForms (c : Reg) : List (Instr × Bool × Nat) :=
  [ (.bmiInd c, false, 0), (.beqInd c, false, 1), (.bcsInd c, false, 2), (.bvsInd c, false, 3),
    (.blsInd c, false, 4), (.bltInd c, false, 5), (.bleInd c, false, 6), (.bInd c, false, 7),
    (.bplInd c, false, 8), (.bneInd c, false, 9), (.bccInd c, false, 10), (.bvcInd c, false, 11),
    (.bhiInd c, false, 12), (.bgeInd c, false, 13), (.bgtInd c, false, 14), (.bnvInd c, false, 15),
    (.blmiInd c, true, 0), (.bleqInd c, true, 1), (.blcsInd c, true, 2), (.blvsInd c, true, 3),
    (.bllsInd c, true, 4), (.blltInd c, true, 5), (.blleInd c, true, 6), (.blInd c, true, 7),
    (.blplInd c, true, 8), (.blneInd c, true, 9), (.blccInd c, true, 10), (.blvcInd c, true, 11),
    (.blhiInd c, true, 12), (.blgeInd c, true, 13), (.blgtInd c, true, 14), (.blnvInd c, true, 15) ]

/-- The pc-relative branches: the instruction, its link flag and its condition number (30_encoding.md R102). -/
def relativeForms (off : BitVec 24) : List (Instr × Bool × Nat) :=
  [ (.bmiRel off, false, 0), (.beqRel off, false, 1), (.bcsRel off, false, 2), (.bvsRel off, false, 3),
    (.blsRel off, false, 4), (.bltRel off, false, 5), (.bleRel off, false, 6), (.bRel off, false, 7),
    (.bplRel off, false, 8), (.bneRel off, false, 9), (.bccRel off, false, 10), (.bvcRel off, false, 11),
    (.bhiRel off, false, 12), (.bgeRel off, false, 13), (.bgtRel off, false, 14), (.bnvRel off, false, 15),
    (.blmiRel off, true, 0), (.bleqRel off, true, 1), (.blcsRel off, true, 2), (.blvsRel off, true, 3),
    (.bllsRel off, true, 4), (.blltRel off, true, 5), (.blleRel off, true, 6), (.blRel off, true, 7),
    (.blplRel off, true, 8), (.blneRel off, true, 9), (.blccRel off, true, 10), (.blvcRel off, true, 11),
    (.blhiRel off, true, 12), (.blgeRel off, true, 13), (.blgtRel off, true, 14), (.blnvRel off, true, 15) ]

/-- The whole effect of a branch whose condition holds or not as `p` says, with target `target`: where `pc` goes, the link
write on the taken path (on both under LINK_WRITE_WHEN_NOT_TAKEN) with `Z`, `N` from it, and everything else as before
(43_branch_ops.md R191, R193, R196, R205). -/
def BranchEffect (link : Bool) (p : Prop) (target : Word) (s t : State) : Prop :=
  (p → t.pc = target) ∧ (¬p → t.pc = s.pc + 4#32)
    ∧ (link = true ∧ (p ∨ s.cfg.linkWriteWhenNotTaken = true) →
        t.reg 15 = s.pc + 4#32 ∧ SameRegsBut 15 s t ∧ t.Z = decide (s.pc + 4#32 = 0) ∧ t.N = (s.pc + 4#32).msb)
    ∧ (¬(link = true ∧ (p ∨ s.cfg.linkWriteWhenNotTaken = true)) → SameRegs s t ∧ t.Z = s.Z ∧ t.N = s.N)
    ∧ KeepsHCV s t ∧ SameMemory s t ∧ SameSurround s t

/-! ### The Builder's invariant (44_unit_builder.md R234) -/

/-- The address of instruction `k` of the unit that starts at `start`. -/
def unitAddr (start : Word) (k : Nat) : Word := start + BitVec.ofNat 32 (4 * k)

/-- Instruction `k` of the unit at `start` is a mapped word with no breakpoint, no floating-point placeholder, and a branch
or not as said. -/
def UnitWord (s : State) (start : Word) (k : Nat) (branch : Bool) : Prop :=
  ∃ w, s.fetch (unitAddr start k) = some w ∧ isBranchWord w = branch ∧ s.breakpointAt (unitAddr start k) = false
    ∧ ∀ a0, emit s.cfg a0 (decodeWord w) ≠ .error (.unsupportedOperation a0)

/-- The most instructions a unit at `start` can hold: the cap, or the slots left on the page (44_unit_builder.md R224). -/
def unitLimit (s : State) (start : Word) : Nat :=
  min s.maxInsns ((s.cfg.pageSize - start.toNat % s.cfg.pageSize) / 4)

/-- What holds of a unit just returned, by its reason (44_unit_builder.md R229 to R234). That the state right after the
closing step still shows the unit is log 7, and the one-successor form of a branch's exit descriptor log 13. -/
def ReturnedInv (s : State) (u : ClosedUnit) : Prop :=
  u.n ≤ unitLimit s u.start ∧
  match u.reason with
  | .fallthroughCap =>
    1 ≤ u.n ∧ u.n = unitLimit s u.start ∧ s.pc = unitAddr u.start u.n ∧ u.exit = .fallthrough s.pc
      ∧ ∀ k < u.n, UnitWord s u.start k false
  | .breakpointHit =>
    s.pc = unitAddr u.start u.n ∧ u.exit = .terminal s.pc ∧ s.breakpointAt s.pc = true
      ∧ ∀ k < u.n, UnitWord s u.start k false
  | .branchExit =>
    ∃ m, u.n = m + 1 ∧ (∀ k < m, UnitWord s u.start k false) ∧ UnitWord s u.start m true
      ∧ ∃ w, s.fetch (unitAddr u.start m) = some w ∧ u.exit = branchExit w (unitAddr u.start m)
  | .aborted _ => False

/-- What holds of the Builder between steps: it is Idle, after a unit that keeps the rules or before any, or Open in the
middle of a unit, with `pc` at the next instruction to translate (44_unit_builder.md R220, R222, R234). That no step leaves
it Closed, and that one cap serves every invocation, is log 7. -/
def BuilderInv (s : State) : Prop :=
  let b := s.builder
  match b.phase with
  | .idle => ∀ u, s.returned = some u → ReturnedInv s u
  | .opened =>
    s.returned = none ∧ b.exit = none ∧ 1 ≤ b.n ∧ b.n < b.max ∧ b.max = unitLimit s b.start
      ∧ b.cur = unitAddr b.start b.n ∧ b.cur = s.pc ∧ ∀ k < b.n, UnitWord s b.start k false
  | .closed _ => False

/-- The invariant of the machine: both maps in canonical form, `I` 0 (60_exceptions.md R276), a cap of at least 1
(44_unit_builder.md R223), and the Builder's invariant. -/
def Inv (s : State) : Prop :=
  s.mem.wf = true ∧ s.fetchMap.wf = true ∧ s.I = false ∧ 1 ≤ s.maxInsns ∧ BuilderInv s

/-! ### Forgetting unit boundaries (44_unit_builder.md R245) -/

/-- The state without the Builder and its output. -/
def State.forgetBuilder (s : State) : State := (s.setBuilder Builder.idle).setReturned none

/-- The state without the Builder, its output, the cap and the page size: what unit boundaries may not change. -/
def State.forgetUnits (s : State) : State :=
  { s.forgetBuilder with maxInsns := 1, cfg := { s.cfg with pageSlotBits := 0 } }

end Sys2Proof.Machine
end

