-- ==== Sys2Proof/Certificates/Slice0/Obligations.lean ====
section
/-! DEFINITION. The statements for the provers. Each docstring says which rule of the spec it formalises, and names the
spec's decision or the log entry where it rests on one. The vocabulary (Completes, WritesDest, the frames, the invariant)
is Safety.lean's. -/

section Statements

open Sys2Proof Sys2Proof.Machine

/-- Decode and encode agree (30_encoding.md R100, R102, R103; decisions D3, D5, D6 fix the numbers). Every term of
Instr is well formed, so there is no hypothesis. -/
def Obligations.DecodeInvertsEncode : Prop :=
  ∀ i : Instr, decode (encode i) = .ok (i, []) ∧ canonicalWord (encodeWord i) = true

/-- The other direction: no bit outside the table of ignored bits is dropped (30_encoding.md R95, decision D7, log
12). -/
def Obligations.EncodeInvertsDecodeUpToIgnoredBits : Prop :=
  ∀ w : Word, encodeWord (decodeWord w) = w &&& ~~~ignoredBits w

/-- 30_encoding.md R95 (decision D7): an ignored bit may have any value. -/
def Obligations.IgnoredBitsNeverMatter : Prop :=
  ∀ w d : Word, decodeWord (w ^^^ (d &&& ignoredBits w)) = decodeWord w
    ∧ isBranchWord (w ^^^ (d &&& ignoredBits w)) = isBranchWord w

/-- The opcode map is a partition of the words (30_encoding.md R102; its numbers are decisions D5, D6). -/
def Obligations.EveryWordMatchesExactlyOneRow : Prop :=
  ∀ w : Word, w &&& (decodeWord w).row.mask = (decodeWord w).row.pattern
    ∧ ∀ i : Instr, w &&& i.row.mask = i.row.pattern → i.row = (decodeWord w).row

/-- Words of the spec's own examples decode to the instructions they are printed with (40_regop_move_shift_logic.md
R114, 40_regop_move_shift_logic.md R120, 41_regop_arith.md R140, 41_regop_arith.md R164, 42_memory_ops.md R171,
43_branch_ops.md R197, 43_branch_ops.md R199). -/
def Obligations.SampleWordsDecode : Prop :=
  decodeWord 0x01000002 = .movReg 1 2 ∧ decodeWord 0x34000000 = .movFlags 4
    ∧ decodeWord 0x5500FFFF = .movImm 5 true 0xFFFF ∧ decodeWord 0x66001234 = .movhi 6 0x1234
    ∧ decodeWord 0x4121001F = .lslImm 1 2 false 31 ∧ decodeWord 0x01240003 = .andReg 1 2 3
    ∧ decodeWord 0x41280001 = .addImm 1 2 false 1 ∧ decodeWord 0x212B0003 = .udivReg 1 2 3
    ∧ decodeWord 0x412F0005 = .fdvImm ∧ decodeWord 0x812FFFFC = .ldw 1 2 (-4)
    ∧ decodeWord 0xB1200009 = .stb 1 2 9 ∧ decodeWord 0xE1000007 = .beqRel 7
    ∧ decodeWord 0xC700000F = .bInd 15

/-- 10_state.md R40 and 70_reset_and_hazards.md R300, R301 (decision D15). RESET_PC is a parameter; the value
State.reset gives it is the model's (log 2) and is not stated here. -/
def Obligations.ResetLeavesTheSpecifiedState : Prop :=
  ∀ l : Launch, (State.launch l).pc = l.resetPc ∧ (State.launch l).I = false
    ∧ (State.launch l).builder.phase = .idle ∧ (State.launch l).mem = l.mem ∧ (State.launch l).fetchMap = l.fetchMap
    ∧ (State.launch l).breakpoints = l.breakpoints ∧ (State.launch l).maxInsns = l.maxInsns
    ∧ (State.launch l).cfg = l.cfg

/-- 10_state.md R40, 44_unit_builder.md R220, R223. The invariant is that of StepKeepsTheInvariant (logs 7, 13); that
nothing has been returned at reset is log 11, and that State.reset is a launch inside the contract rests on its launch
values (logs 2, 3, 4). -/
def Obligations.ResetSatisfiesTheInvariant : Prop :=
  (∀ l : Launch, l.wf = true → Inv (State.launch l)) ∧ Inv State.reset

/-- The unit rules of 44_unit_builder.md R234 with R220, R222, R223, R224, R229, R230, R231, R233, and
60_exceptions.md R276, carried over to the model's steps. The model's own: the step returns the unit it closes, so
that between steps the Builder is Idle or Open, and one cap and one set of breakpoints serve every invocation (log 7);
the parameters are a field no step changes (log 9); a branch with one successor is reported with one, of the two forms
R233 allows (log 13); both maps are lists in canonical form (log 4, log 18). -/
def Obligations.StepKeepsTheInvariant : Prop :=
  ∀ s t : State, Inv s → step s = .next t → Inv t

/-- 20_memory.md R61, R66; 44_unit_builder.md R226, R223; 60_exceptions.md R276; 00_scope.md R7. The spec lets the
caller supply the cap at each invocation, and fixes the breakpoints during one invocation only: that one cap and one
set serve every invocation is the model's caller (log 7). That the parameters are a field no step changes is log 9. -/
def Obligations.StepKeepsThePlatform : Prop :=
  ∀ s t : State, step s = .next t →
    t.fetchMap = s.fetchMap ∧ t.breakpoints = s.breakpoints ∧ t.maxInsns = s.maxInsns ∧ t.cfg = s.cfg ∧ t.I = s.I
      ∧ ∀ a : Word, t.mem.mapped a = s.mem.mapped a

/-- One turn of the Builder's loop with the effect applied at once (44_unit_builder.md R222, R225, R245; log 7). What
exec does is taken from s itself: the Builder is invisible to it. -/
def Obligations.StepRunsTheDecodedInstruction : Prop :=
  ∀ (s : State) (i : Instr) (b0 b1 b2 b3 : Byte),
    s.pc.toNat % 4 = 0 → s.breakpointAt s.pc = false →
    s.fetchMap.get s.pc = some b0 → s.fetchMap.get (s.pc + 1#32) = some b1 →
    s.fetchMap.get (s.pc + 2#32) = some b2 → s.fetchMap.get (s.pc + 3#32) = some b3 →
    decode [b0, b1, b2, b3] = .ok (i, []) →
    step s = match exec i s with
      | .next t => .next (t.setBuilder (s.openUnit.builder.count (wordOfBytes b0 b1 b2 b3))).returnUnit
      | .fault signal => .fault signal
      | .refused reason => .refused reason

/-- 44_unit_builder.md R222, R231, 60_exceptions.md R264, R269. That a stop at a breakpoint is a next state is log 6;
that the step invokes the Builder there and returns the unit is log 7. -/
def Obligations.StepStopsAtABreakpoint : Prop :=
  ∀ s : State, s.breakpointAt s.pc = true → (s.builder.phase = .opened → s.builder.cur = s.pc) →
    let stopped (t : State) : Prop :=
      t.endedNormally = true ∧ t.returned.map ClosedUnit.exit = some (.terminal s.pc) ∧ t.builder.phase = .idle
        ∧ (t.setBuilder s.builder).setReturned s.returned = s
    ∃ t, step s = .next t ∧ stopped t ∧ ∃ u, step t = .next u ∧ stopped u

/-- 20_memory.md R57 (decisions D19, D28). That a word with one byte missing is not mapped is log 14. -/
def Obligations.FetchFaultsExactlyWhere : Prop :=
  ∀ s : State, s.breakpointAt s.pc = false →
    (step s = .fault (.memoryFault .fetch s.pc s.pc) ↔
      s.pc.toNat % 4 ≠ 0 ∨ ∃ k < 4, s.fetchMap.get (s.pc + BitVec.ofNat 32 k) = none)

/-- About the model's own way to place an instruction (log 4, log 22), from 20_memory.md R57 and 30_encoding.md R80.
-/
def Obligations.PlacedWordIsTheNextInstruction : Prop :=
  ∀ (s : State) (nbits w : Nat),
    step (s.withFetchWord nbits w) = runWord (BitVec.ofNat 32 (w % 2 ^ nbits)) (s.withFetchWord nbits w).openUnit

/-- MOV (register, H, immediate) and MOVHI complete, write their source to Ra with Z and N from it, and change nothing
else (40_regop_move_shift_logic.md R114, 40_regop_move_shift_logic.md R115, 40_regop_move_shift_logic.md R117,
40_regop_move_shift_logic.md R118, 40_regop_move_shift_logic.md R119). -/
def Obligations.MovesWriteTheirSource : Prop :=
  ∀ (s : State) (a c : Reg) (v : Bool) (imm : BitVec 16),
    Completes (.movReg a c) s (fun t => WritesDest a (s.reg c) s t ∧ KeepsHCV s t)
    ∧ Completes (.movH a) s (fun t => WritesDest a s.H s t ∧ KeepsHCV s t)
    ∧ Completes (.movImm a v imm) s (fun t => WritesDest a (BitVec.ofInt 32 (immNumber v imm)) s t ∧ KeepsHCV s t)
    ∧ Completes (.movhi a imm) s (fun t => WritesDest a (BitVec.ofNat 32 (imm.toNat * 65536)) s t ∧ KeepsHCV s t)

/-- 40_regop_move_shift_logic.md R116. The place of the field is the parameter FLAGPACK_SHIFT (decision D11, value 0;
log 9). -/
def Obligations.MovFlagsPacksNZCV : Prop :=
  ∀ (s : State) (a : Reg),
    Completes (.movFlags a) s (fun t =>
      WritesDest a (BitVec.ofNat 32
        ((8 * s.N.toNat + 4 * s.Z.toNat + 2 * s.C.toNat + s.V.toNat) * 2 ^ s.cfg.flagpackShift.val)) s t
      ∧ KeepsHCV s t
      ∧ (s.cfg.flagpackShift = 0 → t.N = false
          ∧ (t.Z = true ↔ s.N = false ∧ s.Z = false ∧ s.C = false ∧ s.V = false)))

/-- 40_regop_move_shift_logic.md R120 to R122 (ROR's amount is decision D24), the C-value by 30_encoding.md R87. The
division is Lean's floor division of integers by a power of two. -/
def Obligations.ShiftsAndRotateByFiveBits : Prop :=
  ∀ (s : State) (a b c : Reg) (v : Bool) (imm : BitVec 16) (cv : Word),
    let n := cv.toNat % 32
    let shifted (d : Word) (t : State) : Prop := WritesDest a d s t ∧ KeepsHCV s t
    let left : Word := BitVec.ofNat 32 ((s.reg b).toNat * 2 ^ n)
    let right : Word := BitVec.ofInt 32 ((s.reg b).toInt / 2 ^ n)
    let rotated : Word := BitVec.ofNat 32 ((s.reg b).toNat / 2 ^ n + (s.reg b).toNat * 2 ^ (32 - n))
    (cv = s.reg c → Completes (.lslReg a b c) s (shifted left) ∧ Completes (.asrReg a b c) s (shifted right)
      ∧ Completes (.rorReg a b c) s (shifted rotated))
    ∧ (cv = BitVec.ofInt 32 (immNumber v imm) → Completes (.lslImm a b v imm) s (shifted left)
      ∧ Completes (.asrImm a b v imm) s (shifted right) ∧ Completes (.rorImm a b v imm) s (shifted rotated))

/-- 40_regop_move_shift_logic.md R123 to R126; cv names the C-value of the form (30_encoding.md R87). -/
def Obligations.LogicOperationsBitByBit : Prop :=
  ∀ (s : State) (a b c : Reg) (v : Bool) (imm : BitVec 16) (cv : Word),
    (cv = s.reg c →
      Completes (.andReg a b c) s (fun t => WritesDest a (t.reg a) s t ∧ KeepsHCV s t
        ∧ ∀ k < 32, bit (t.reg a) k = (bit (s.reg b) k && bit cv k))
      ∧ Completes (.annReg a b c) s (fun t => WritesDest a (t.reg a) s t ∧ KeepsHCV s t
        ∧ ∀ k < 32, bit (t.reg a) k = (bit (s.reg b) k && !bit cv k))
      ∧ Completes (.iorReg a b c) s (fun t => WritesDest a (t.reg a) s t ∧ KeepsHCV s t
        ∧ ∀ k < 32, bit (t.reg a) k = (bit (s.reg b) k || bit cv k))
      ∧ Completes (.xorReg a b c) s (fun t => WritesDest a (t.reg a) s t ∧ KeepsHCV s t
        ∧ ∀ k < 32, bit (t.reg a) k = (bit (s.reg b) k != bit cv k)))
    ∧ (cv = BitVec.ofInt 32 (immNumber v imm) →
      Completes (.andImm a b v imm) s (fun t => WritesDest a (t.reg a) s t ∧ KeepsHCV s t
        ∧ ∀ k < 32, bit (t.reg a) k = (bit (s.reg b) k && bit cv k))
      ∧ Completes (.annImm a b v imm) s (fun t => WritesDest a (t.reg a) s t ∧ KeepsHCV s t
        ∧ ∀ k < 32, bit (t.reg a) k = (bit (s.reg b) k && !bit cv k))
      ∧ Completes (.iorImm a b v imm) s (fun t => WritesDest a (t.reg a) s t ∧ KeepsHCV s t
        ∧ ∀ k < 32, bit (t.reg a) k = (bit (s.reg b) k || bit cv k))
      ∧ Completes (.xorImm a b v imm) s (fun t => WritesDest a (t.reg a) s t ∧ KeepsHCV s t
        ∧ ∀ k < 32, bit (t.reg a) k = (bit (s.reg b) k != bit cv k)))

/-- ADD and ADC complete with the sum modulo 2^32, C by the wrap test, V by the sign rule, and nothing else changed
(41_regop_arith.md R140, 41_regop_arith.md R141, 41_regop_arith.md R142). -/
def Obligations.AddAndAdcWriteAllFlags : Prop :=
  ∀ (s : State) (a b c : Reg) (v : Bool) (imm : BitVec 16),
    Completes (.addReg a b c) s (fun t => AddEffect 0 a (s.reg b) (s.reg c) s t)
    ∧ Completes (.addImm a b v imm) s (fun t => AddEffect 0 a (s.reg b) (BitVec.ofInt 32 (immNumber v imm)) s t)
    ∧ Completes (.adcReg a b c) s (fun t => AddEffect s.C.toNat a (s.reg b) (s.reg c) s t)
    ∧ Completes (.adcImm a b v imm) s
        (fun t => AddEffect s.C.toNat a (s.reg b) (BitVec.ofInt 32 (immNumber v imm)) s t)

/-- SUB and SBC complete with the difference modulo 2^32, C by the borrow test, V by the sign rule, and nothing else
changed (41_regop_arith.md R144, 41_regop_arith.md R145, 41_regop_arith.md R146). -/
def Obligations.SubAndSbcWriteAllFlags : Prop :=
  ∀ (s : State) (a b c : Reg) (v : Bool) (imm : BitVec 16),
    Completes (.subReg a b c) s (fun t => SubEffect 0 a (s.reg b) (s.reg c) s t)
    ∧ Completes (.subImm a b v imm) s (fun t => SubEffect 0 a (s.reg b) (BitVec.ofInt 32 (immNumber v imm)) s t)
    ∧ Completes (.sbcReg a b c) s (fun t => SubEffect s.C.toNat a (s.reg b) (s.reg c) s t)
    ∧ Completes (.sbcImm a b v imm) s
        (fun t => SubEffect s.C.toNat a (s.reg b) (BitVec.ofInt 32 (immNumber v imm)) s t)

/-- MUL and UMUL complete, and H with Ra hold the whole 64-bit product, signed or unsigned. -/
def Obligations.MultiplyKeepsTheWholeProduct : Prop :=
  ∀ (s : State) (a b c : Reg) (v : Bool) (imm : BitVec 16),
    Completes (.mulReg a b c) s (fun t => WritesDest a (t.reg a) s t ∧ t.C = s.C ∧ t.V = s.V
      ∧ t.H.toInt * 2 ^ 32 + (t.reg a).toNat = (s.reg b).toInt * (s.reg c).toInt)
    ∧ Completes (.mulImm a b v imm) s (fun t => WritesDest a (t.reg a) s t ∧ t.C = s.C ∧ t.V = s.V
      ∧ t.H.toInt * 2 ^ 32 + (t.reg a).toNat = (s.reg b).toInt * immNumber v imm)
    ∧ Completes (.umulReg a b c) s (fun t => WritesDest a (t.reg a) s t ∧ t.C = s.C ∧ t.V = s.V
      ∧ t.H.toNat * 2 ^ 32 + (t.reg a).toNat = (s.reg b).toNat * (s.reg c).toNat)
    ∧ Completes (.umulImm a b v imm) s (fun t => WritesDest a (t.reg a) s t ∧ t.C = s.C ∧ t.V = s.V
      ∧ t.H.toNat * 2 ^ 32 + (t.reg a).toNat = (s.reg b).toNat * (BitVec.ofInt 32 (immNumber v imm) : Word).toNat)

/-- 41_regop_arith.md R150 to R152; that bit 29 makes a divide unsigned is decision D10. The two effects are spelled
out in Safety.lean. -/
def Obligations.DivideTruncatesTowardZero : Prop :=
  ∀ (s : State) (a b c : Reg) (v : Bool) (imm : BitVec 16) (cv : Word), cv ≠ 0 →
    (cv = s.reg c →
      (¬(s.reg b = 0x80000000 ∧ cv = 0xFFFFFFFF) →
        Completes (.divReg a b c) s (fun t => SignedDivideEffect a (s.reg b) cv s t))
      ∧ Completes (.udivReg a b c) s (fun t => UnsignedDivideEffect a (s.reg b) cv s t))
    ∧ (cv = BitVec.ofInt 32 (immNumber v imm) →
      (¬(s.reg b = 0x80000000 ∧ cv = 0xFFFFFFFF) →
        Completes (.divImm a b v imm) s (fun t => SignedDivideEffect a (s.reg b) cv s t))
      ∧ Completes (.udivImm a b v imm) s (fun t => UnsignedDivideEffect a (s.reg b) cv s t))

/-- 41_regop_arith.md R154 (decision D8: trap). -/
def Obligations.DivideByZeroRaises : Prop :=
  ∀ (s : State) (a b c : Reg) (v : Bool),
    (s.reg c = 0 → exec (.divReg a b c) s = .fault (.divideByZero s.pc)
      ∧ exec (.udivReg a b c) s = .fault (.divideByZero s.pc))
    ∧ exec (.divImm a b v 0) s = .fault (.divideByZero s.pc)
    ∧ exec (.udivImm a b v 0) s = .fault (.divideByZero s.pc)

/-- 41_regop_arith.md R155: DIV_OVERFLOW is the spec's parameter (decision D9, value trap; log 9). -/
def Obligations.DivideOverflowFollowsTheParameter : Prop :=
  ∀ (s : State) (a b c : Reg), s.reg b = 0x80000000 →
    (s.cfg.divOverflow = .trap →
      (s.reg c = 0xFFFFFFFF → exec (.divReg a b c) s = .fault (.divideOverflow s.pc))
      ∧ exec (.divImm a b true 0xFFFF) s = .fault (.divideOverflow s.pc))
    ∧ (s.cfg.divOverflow = .wrap →
      (s.reg c = 0xFFFFFFFF →
        Completes (.divReg a b c) s (fun t => WritesDest a 0x80000000 s t ∧ t.H = 0 ∧ t.C = s.C ∧ t.V = s.V))
      ∧ Completes (.divImm a b true 0xFFFF) s
          (fun t => WritesDest a 0x80000000 s t ∧ t.H = 0 ∧ t.C = s.C ∧ t.V = s.V))

/-- 41_regop_arith.md R160 to R164. A fault carries no state: the run ends with the state before the instruction (log
5). -/
def Obligations.FloatingPointRaisesUnsupported : Prop :=
  (∀ (s : State), ∀ i ∈ [Instr.fadReg, .fadImm, .fsbReg, .fsbImm, .fmlReg, .fmlImm, .fdvReg, .fdvImm],
      exec i s = .fault (.unsupportedOperation s.pc))
    ∧ ∀ (s : State) (w a0 : Word), bit w 31 = false → 12 ≤ (field w 16 4).toNat →
        exec (decodeWord w) s = .fault (.unsupportedOperation s.pc)
        ∧ emit s.cfg a0 (decodeWord w) = .error (.unsupportedOperation a0)

/-- A register-class instruction writes exactly x[a], H only if it multiplies or divides, C and V only if it adds or
subtracts (40_regop_move_shift_logic.md R127). -/
def Obligations.RegisterClassFrame : Prop :=
  ∀ (w : Word) (s t : State), bit w 31 = false → exec (decodeWord w) s = .next t →
    SameRegsBut (regOfBits (field w 24 4)) s t
    ∧ (t.H ≠ s.H → (field w 16 4).toNat = 10 ∨ (field w 16 4).toNat = 11)
    ∧ (t.C ≠ s.C ∨ t.V ≠ s.V → (field w 16 4).toNat = 8 ∨ (field w 16 4).toNat = 9)
    ∧ t.I = s.I ∧ t.mem = s.mem ∧ (∀ m : Memory, exec (decodeWord w) (s.setMem m) = .next (t.setMem m))
    ∧ ∀ b : Builder, b.phase = .opened → (b.count w).phase ≠ .closed .branchExit
        ∧ (b.n + 1 < b.max → (b.count w).phase = .opened)

/-- Every register-class instruction that completes sets Z and N from the value it wrote to x[a]
(40_regop_move_shift_logic.md R113). -/
def Obligations.ZeroAndNegativeFromTheDestination : Prop :=
  ∀ (w : Word) (s t : State), bit w 31 = false → exec (decodeWord w) s = .next t →
    t.Z = decide (t.reg (regOfBits (field w 24 4)) = 0)
    ∧ t.N = bit (t.reg (regOfBits (field w 24 4))) 31
    ∧ ¬(t.Z = true ∧ t.N = true)

/-- The facts (a), (b), (c) that 41_regop_arith.md R141 marks as derived, for the C-value cv of either form
(30_encoding.md R87). -/
def Obligations.AddFlagsAreTrueCarryAndOverflow : Prop :=
  ∀ (s : State) (a b c : Reg) (v : Bool) (imm : BitVec 16) (cv : Word),
    let plain (t : State) : Prop :=
      t.C = decide (2 ^ 32 ≤ (s.reg b).toNat + cv.toNat)
      ∧ t.V = decide ((s.reg b).toInt + cv.toInt < -2 ^ 31 ∨ 2 ^ 31 ≤ (s.reg b).toInt + cv.toInt)
    let withCarry (t : State) : Prop :=
      (¬(s.C = true ∧ cv = 0xFFFFFFFF) → t.C = decide (2 ^ 32 ≤ (s.reg b).toNat + cv.toNat + s.C.toNat))
      ∧ (s.C = true ∧ cv = 0xFFFFFFFF → t.C = false ∧ t.reg a = s.reg b)
      ∧ t.V = decide ((s.reg b).toInt + cv.toInt + s.C.toNat < -2 ^ 31
          ∨ 2 ^ 31 ≤ (s.reg b).toInt + cv.toInt + s.C.toNat)
    (cv = s.reg c → Completes (.addReg a b c) s plain ∧ Completes (.adcReg a b c) s withCarry)
    ∧ (cv = BitVec.ofInt 32 (immNumber v imm) →
        Completes (.addImm a b v imm) s plain ∧ Completes (.adcImm a b v imm) s withCarry)

/-- The facts (a), (b), (c) that 41_regop_arith.md R145 marks as derived, for the C-value cv of either form
(30_encoding.md R87). -/
def Obligations.SubFlagsAreTrueBorrowAndOverflow : Prop :=
  ∀ (s : State) (a b c : Reg) (v : Bool) (imm : BitVec 16) (cv : Word),
    let plain (t : State) : Prop :=
      t.C = decide ((s.reg b).toNat < cv.toNat)
      ∧ t.V = decide ((s.reg b).toInt - cv.toInt < -2 ^ 31 ∨ 2 ^ 31 ≤ (s.reg b).toInt - cv.toInt)
    let withCarry (t : State) : Prop :=
      (¬(s.C = true ∧ cv = 0xFFFFFFFF) → t.C = decide ((s.reg b).toNat < cv.toNat + s.C.toNat))
      ∧ (s.C = true ∧ cv = 0xFFFFFFFF → t.C = false ∧ t.reg a = s.reg b)
      ∧ t.V = decide ((s.reg b).toInt - cv.toInt - s.C.toNat < -2 ^ 31
          ∨ 2 ^ 31 ≤ (s.reg b).toInt - cv.toInt - s.C.toNat)
    (cv = s.reg c → Completes (.subReg a b c) s plain ∧ Completes (.sbcReg a b c) s withCarry)
    ∧ (cv = BitVec.ofInt 32 (immNumber v imm) →
        Completes (.subImm a b v imm) s plain ∧ Completes (.sbcImm a b v imm) s withCarry)

/-- The meanings after a compare that 43_branch_ops.md R192 marks as derived. -/
def Obligations.ComparisonsMeanWhatTheirNamesSay : Prop :=
  ∀ (s : State) (a b c : Reg),
    Completes (.subReg a b c) s (fun t =>
      (takenByTable 1 t ↔ s.reg b = s.reg c) ∧ (takenByTable 9 t ↔ s.reg b ≠ s.reg c)
      ∧ (takenByTable 2 t ↔ (s.reg b).toNat < (s.reg c).toNat)
      ∧ (takenByTable 10 t ↔ (s.reg c).toNat ≤ (s.reg b).toNat)
      ∧ (takenByTable 4 t ↔ (s.reg b).toNat ≤ (s.reg c).toNat)
      ∧ (takenByTable 12 t ↔ (s.reg c).toNat < (s.reg b).toNat)
      ∧ (takenByTable 5 t ↔ (s.reg b).toInt < (s.reg c).toInt)
      ∧ (takenByTable 13 t ↔ (s.reg c).toInt ≤ (s.reg b).toInt)
      ∧ (takenByTable 6 t ↔ (s.reg b).toInt ≤ (s.reg c).toInt)
      ∧ (takenByTable 14 t ↔ (s.reg c).toInt < (s.reg b).toInt))

/-- ADD then ADC add, and SUB then SBC subtract, 64-bit numbers held in register pairs (41_regop_arith.md R140,
41_regop_arith.md R142, 41_regop_arith.md R144, 41_regop_arith.md R146). -/
def Obligations.CarryChainsAddSixtyFourBits : Prop :=
  ∀ (s : State) (lo hi b1 c1 b2 c2 : Reg), lo ≠ hi → lo ≠ b2 → lo ≠ c2 →
    Completes (.addReg lo b1 c1) s (fun t => Completes (.adcReg hi b2 c2) t (fun u =>
      (u.reg hi ++ u.reg lo : BitVec 64) = (s.reg b2 ++ s.reg b1) + (s.reg c2 ++ s.reg c1)))
    ∧ Completes (.subReg lo b1 c1) s (fun t => Completes (.sbcReg hi b2 c2) t (fun u =>
      (u.reg hi ++ u.reg lo : BitVec 64) = (s.reg b2 ++ s.reg b1) - (s.reg c2 ++ s.reg c1)))

/-- 10_state.md R23. On the paths where a divide raises, both outcomes are the same fault. -/
def Obligations.HighRegisterIsWrittenAndReadOnlyAsListed : Prop :=
  ∀ (i : Instr) (s : State) (h : Word),
    let multiplyOrDivide := ∃ a b c v imm, i = .mulReg a b c ∨ i = .mulImm a b v imm ∨ i = .umulReg a b c
      ∨ i = .umulImm a b v imm ∨ i = .divReg a b c ∨ i = .divImm a b v imm ∨ i = .udivReg a b c
      ∨ i = .udivImm a b v imm
    (∀ t, exec i s = .next t → t.H ≠ s.H → multiplyOrDivide)
    ∧ (multiplyOrDivide → exec i (s.setH h) = exec i s)
    ∧ (¬multiplyOrDivide → (∀ a, i ≠ .movH a) →
        exec i (s.setH h) = mapNext (fun t => t.setH h) (exec i s))

/-- 60_exceptions.md R276 (decision D22). That I is 0 after reset is decision D15. -/
def Obligations.InterruptEnableIsInert : Prop :=
  (∀ l : Launch, (State.launch l).I = false)
    ∧ (∀ (s : State) (v : Bool), step { s with I := v } = mapNext (fun t => { t with I := v }) (step s))
    ∧ (∀ (i : Instr) (s : State) (v : Bool),
        exec i { s with I := v } = mapNext (fun t => { t with I := v }) (exec i s))
    ∧ ∀ s : State, s.dump.flags[4]? = some s.I.toNat

/-- 42_memory_ops.md R171; the byte order is decision D3. -/
def Obligations.LoadWordReadsLittleEndian : Prop :=
  ∀ (s : State) (a b : Reg) (off : BitVec 20) (b0 b1 b2 b3 : Byte), (s.ea b off).toNat % 4 = 0 →
    s.mem.get (s.ea b off) = some b0 → s.mem.get (s.ea b off + 1#32) = some b1 →
    s.mem.get (s.ea b off + 2#32) = some b2 → s.mem.get (s.ea b off + 3#32) = some b3 →
    Completes (.ldw a b off) s (fun t =>
      WritesDest a (BitVec.ofNat 32 (b0.toNat + 2 ^ 8 * b1.toNat + 2 ^ 16 * b2.toNat + 2 ^ 24 * b3.toNat)) s t
      ∧ KeepsHCV s t)

/-- LDB at a mapped address, aligned or not, completes with the byte zero-extended, N = 0, and changes nothing else
(42_memory_ops.md R172, 42_memory_ops.md R170, 20_memory.md R54). -/
def Obligations.LoadByteZeroExtends : Prop :=
  ∀ (s : State) (a b : Reg) (off : BitVec 20) (byte : Byte), s.mem.get (s.ea b off) = some byte →
    Completes (.ldb a b off) s (fun t =>
      WritesDest a (BitVec.ofNat 32 byte.toNat) s t ∧ KeepsHCV s t ∧ t.N = false)

/-- 42_memory_ops.md R173. The store to an address of the fetch mapping is StoresStopExactlyWhere's. -/
def Obligations.StoreWordWritesFourBytes : Prop :=
  ∀ (s : State) (a b : Reg) (off : BitVec 20), (s.ea b off).toNat % 4 = 0 →
    (∀ k < 4, (s.mem.get (s.ea b off + BitVec.ofNat 32 k)).isSome = true
      ∧ s.fetchMap.get (s.ea b off + BitVec.ofNat 32 k) = none) →
    Completes (.stw a b off) s (fun t =>
      (∀ k < 4, t.mem.get (s.ea b off + BitVec.ofNat 32 k)
        = some (BitVec.ofNat 8 ((s.reg a).toNat / 2 ^ (8 * k))))
      ∧ SameMemoryOutside (s.ea b off) 4 s t ∧ SameRegs s t ∧ t.H = s.H ∧ SameFlags s t ∧ SameSurround s t
      ∧ t.pc = s.pc + 4#32)

/-- STB at a mapped address off the fetch mapping, aligned or not, completes, stores the low byte of x[a], and changes
nothing else (42_memory_ops.md R174, 42_memory_ops.md R170, 20_memory.md R56, 20_memory.md R54). -/
def Obligations.StoreByteWritesOneByte : Prop :=
  ∀ (s : State) (a b : Reg) (off : BitVec 20),
    (s.mem.get (s.ea b off)).isSome = true → s.fetchMap.get (s.ea b off) = none →
    Completes (.stb a b off) s (fun t =>
      t.mem.get (s.ea b off) = some (BitVec.ofNat 8 (s.reg a).toNat)
      ∧ SameMemoryOutside (s.ea b off) 1 s t ∧ SameRegs s t ∧ t.H = s.H ∧ SameFlags s t ∧ SameSurround s t
      ∧ t.pc = s.pc + 4#32)

/-- 42_memory_ops.md R175; misalignment is decision D4 (log 10), the unmapped byte of a word log 14. -/
def Obligations.LoadsFaultExactlyWhere : Prop :=
  ∀ (s : State) (a b : Reg) (off : BitVec 20),
    (exec (.ldw a b off) s = .fault (.memoryFault .load (s.ea b off) s.pc) ↔
      (s.ea b off).toNat % 4 ≠ 0 ∨ ∃ k < 4, s.mem.get (s.ea b off + BitVec.ofNat 32 k) = none)
    ∧ (exec (.ldb a b off) s = .fault (.memoryFault .load (s.ea b off) s.pc) ↔ s.mem.get (s.ea b off) = none)

/-- 20_memory.md R54, R56, R61, R66 (decisions D4, D12). The order alignment, refusal, unmapped is the model's choice
(log 8); that a word with one byte unmapped does not complete is log 14. -/
def Obligations.StoresStopExactlyWhere : Prop :=
  ∀ (s : State) (a b : Reg) (off : BitVec 20),
    let ea := s.ea b off
    let offProgram := ∀ k < 4, s.fetchMap.get (ea + BitVec.ofNat 32 k) = none
    let mapped := ∀ k < 4, s.mem.get (ea + BitVec.ofNat 32 k) ≠ none
    (exec (.stw a b off) s = .fault (.memoryFault .store ea s.pc) ↔ ea.toNat % 4 ≠ 0 ∨ offProgram ∧ ¬mapped)
    ∧ (exec (.stw a b off) s = .refused (.storeToFetchMapping ea s.pc) ↔ ea.toNat % 4 = 0 ∧ ¬offProgram)
    ∧ ((∃ t, exec (.stw a b off) s = .next t) ↔ ea.toNat % 4 = 0 ∧ offProgram ∧ mapped)
    ∧ (exec (.stb a b off) s = .fault (.memoryFault .store ea s.pc) ↔
        s.fetchMap.get ea = none ∧ s.mem.get ea = none)
    ∧ (exec (.stb a b off) s = .refused (.storeToFetchMapping ea s.pc) ↔ s.fetchMap.get ea ≠ none)
    ∧ ((∃ t, exec (.stb a b off) s = .next t) ↔ s.fetchMap.get ea = none ∧ s.mem.get ea ≠ none)

/-- 42_memory_ops.md R170 for the address and the base; R171 to R174 for the values loaded and stored; R175 and
60_exceptions.md R263 for the address a fault names. That a store into the fetch mapping is refused is 20_memory.md
R66; the refusal, its address and its place among the tests are log 8. -/
def Obligations.MemoryClassUsesOneEffectiveAddress : Prop :=
  ∀ (w : Word) (s : State), bit w 31 = true → bit w 30 = false →
    let a := regOfBits (field w 24 4)
    let ea : Word := BitVec.ofInt 32 ((s.reg (regOfBits (field w 20 4))).toInt + (field w 0 20).toInt)
    (∀ t, exec (decodeWord w) s = .next t →
      (bit w 29 = false → bit w 28 = false → s.mem.readWord ea = some (t.reg a))
      ∧ (bit w 29 = false → bit w 28 = true → ∃ byte, s.mem.get ea = some byte ∧ t.reg a = byte.setWidth 32)
      ∧ (bit w 29 = false → SameMemory s t ∧ SameRegsBut a s t)
      ∧ (bit w 29 = true → bit w 28 = false → t.mem.readWord ea = some (s.reg a) ∧ SameMemoryOutside ea 4 s t)
      ∧ (bit w 29 = true → bit w 28 = true →
          t.mem.get ea = some ((s.reg a).setWidth 8) ∧ SameMemoryOutside ea 1 s t)
      ∧ (bit w 29 = true → SameRegs s t))
    ∧ (∀ kind addr a0, exec (decodeWord w) s = .fault (.memoryFault kind addr a0) → addr = ea)
    ∧ ∀ addr a0, exec (decodeWord w) s = .refused (.storeToFetchMapping addr a0) → addr = ea

/-- A load right after a store to the same bytes completes with what was stored, whole word or single byte
(20_memory.md R63, 20_memory.md R52, 42_memory_ops.md R173, 42_memory_ops.md R174). -/
def Obligations.LoadReturnsTheLatestStore : Prop :=
  ∀ (s t : State) (a b a' b' : Reg) (off off' : BitVec 20),
    (exec (.stw a b off) s = .next t →
      (t.ea b' off' = s.ea b off → Completes (.ldw a' b' off') t (fun u => u.reg a' = s.reg a))
      ∧ ∀ k < 4, t.ea b' off' = s.ea b off + BitVec.ofNat 32 k →
          Completes (.ldb a' b' off') t
            (fun u => u.reg a' = BitVec.ofNat 32 ((s.reg a).toNat / 2 ^ (8 * k) % 256)))
    ∧ (exec (.stb a b off) s = .next t → t.ea b' off' = s.ea b off →
        Completes (.ldb a' b' off') t (fun u => u.reg a' = BitVec.ofNat 32 ((s.reg a).toNat % 256)))

/-- The table of 60_exceptions.md R265 (DivideOverflow is the spec's own signal, decision D9); the refusal is
20_memory.md R66 (log 8). -/
def Obligations.OnlyTheListedSignals : Prop :=
  ∀ (i : Instr) (s : State),
    (∀ a0, exec i s = .fault (.unsupportedOperation a0) →
      a0 = s.pc ∧ i ∈ [Instr.fadReg, .fadImm, .fsbReg, .fsbImm, .fmlReg, .fmlImm, .fdvReg, .fdvImm])
    ∧ (∀ a0, exec i s = .fault (.divideByZero a0) → a0 = s.pc ∧ ∃ a b c v imm,
        i = .divReg a b c ∨ i = .divImm a b v imm ∨ i = .udivReg a b c ∨ i = .udivImm a b v imm)
    ∧ (∀ a0, exec i s = .fault (.divideOverflow a0) → a0 = s.pc ∧ s.cfg.divOverflow = .trap ∧ ∃ a b c v imm,
        i = .divReg a b c ∨ i = .divImm a b v imm)
    ∧ (∀ kind addr a0, exec i s = .fault (.memoryFault kind addr a0) → a0 = s.pc ∧ ∃ a b off, addr = s.ea b off
        ∧ (kind = .load ∧ (i = .ldw a b off ∨ i = .ldb a b off)
          ∨ kind = .store ∧ (i = .stw a b off ∨ i = .stb a b off)))
    ∧ ∀ reason, exec i s = .refused reason →
        ∃ a b off, reason = .storeToFetchMapping (s.ea b off) s.pc ∧ (i = .stw a b off ∨ i = .stb a b off)

/-- 43_branch_ops.md R199, R200 with R192, R196, R202. x[15] is decision D1; the not-taken link write is the parameter
LINK_WRITE_WHEN_NOT_TAKEN (decision D14, log 9). -/
def Obligations.IndirectBranchesComplete : Prop :=
  ∀ (c : Reg) (s : State), ∀ form ∈ indirectForms c,
    Completes form.1 s (BranchEffect form.2.1 (takenByTable form.2.2 s) (s.reg c) s)

/-- 43_branch_ops.md R197, R198 with R192, R193, R196 (decisions D1, D2; LINK_WRITE_WHEN_NOT_TAKEN is decision D14,
log 9). -/
def Obligations.RelativeBranchesComplete : Prop :=
  ∀ (off : BitVec 24) (s : State), ∀ form ∈ relativeForms off,
    Completes form.1 s (BranchEffect form.2.1 (takenByTable form.2.2 s)
      (BitVec.ofInt 32 ((s.pc.toNat : Int) + 4 + 4 * off.toInt)) s)

/-- A branch word goes to its target exactly when bit 27 exclusive-or the term of bits 26:24, on the old flags, is 1
(43_branch_ops.md R191). -/
def Obligations.BranchTakenByTheWorkingBit : Prop :=
  ∀ (w : Word) (s : State), isBranchWord w = true →
    let term : Bool := match (field w 24 3).toNat with
      | 0 => s.N
      | 1 => s.Z
      | 2 => s.C
      | 3 => s.V
      | 4 => s.C || s.Z
      | 5 => s.N != s.V
      | 6 => s.N != s.V || s.Z
      | _ => true
    let T : Bool := bit w 27 != term
    let target : Word := if bit w 29 then BitVec.ofInt 32 ((s.pc.toNat : Int) + 4 + 4 * (field w 0 24).toInt)
      else s.reg (regOfBits (field w 0 4))
    Completes (decodeWord w) s (fun t => t.pc = if T then target else s.pc + 4#32)

/-- Every branch word completes without a memory access, and a bad target shows only at the next fetch
(43_branch_ops.md R204). -/
def Obligations.BranchRaisesNoSignal : Prop :=
  ∀ (w : Word) (s : State), isBranchWord w = true →
    Completes (decodeWord w) s (fun t => t.mem = s.mem
      ∧ (∀ m : Memory, exec (decodeWord w) (s.setMem m) = .next (t.setMem m))
      ∧ (t.pc.toNat % 4 ≠ 0 → t.breakpointAt t.pc = false →
          step t = .fault (.memoryFault .fetch t.pc t.pc)))

/-- 43_branch_ops.md R205, R190; that the link register is x[15] is decision D1. -/
def Obligations.BranchFrameAndBlindness : Prop :=
  ∀ (w : Word) (s t : State), isBranchWord w = true → exec (decodeWord w) s = .next t →
    SameRegsBut 15 s t ∧ KeepsHCV s t ∧ t.I = s.I ∧ t.mem = s.mem
    ∧ ∀ (h : Word) (m : Memory),
        exec (decodeWord w) ((s.setH h).setMem m) = .next ((t.setH h).setMem m)

/-- 43_branch_ops.md R203; the link register x[15] is decision D1. -/
def Obligations.CallAndReturnComesBack : Prop :=
  ∀ (s : State) (off : BitVec 24) (c : Reg),
    let back (u : State) : Prop :=
      u.pc = s.pc + 4#32 ∧ u.reg 15 = s.pc + 4#32 ∧ SameRegsBut 15 s u ∧ KeepsHCV s u ∧ SameMemory s u
    Completes (.blRel off) s (fun t => Completes (.bInd 15) t back)
    ∧ Completes (.blInd c) s (fun t => Completes (.bInd 15) t back)

/-- From a pc that is a multiple of 4, only a register-indirect branch can lead to one that is not (20_memory.md R57,
43_branch_ops.md R194, 10_state.md R25). -/
def Obligations.PcStaysAligned : Prop :=
  ∀ s t : State, step s = .next t → s.pc.toNat % 4 = 0 →
    t.pc.toNat % 4 = 0
    ∨ ∃ w, s.fetch s.pc = some w ∧ isBranchWord w = true ∧ bit w 29 = false
        ∧ t.pc = s.reg (regOfBits (field w 0 4))

/-- 44_unit_builder.md R229, with the invocation of R222 and R224 and the loop of R225. That a step opens the unit at
pc is log 7. No premise asks for a cap of at least 1: that a cap of 0 closes after one word is log 15. -/
def Obligations.UnitClosesOnBranchOrCap : Prop :=
  ∀ (s t : State) (w : Word), s.fetch s.pc = some w → s.breakpointAt s.pc = false → step s = .next t →
    let b := s.openUnit.builder
    (s.builder.phase ≠ .opened → b.start = s.pc ∧ b.n = 0
      ∧ b.max = min s.maxInsns ((s.cfg.pageSize - s.pc.toNat % s.cfg.pageSize) / 4))
    ∧ (isBranchWord w = true → ∃ exit, t.returned = some ⟨b.start, b.n + 1, .branchExit, exit⟩)
    ∧ (isBranchWord w = false → b.max ≤ b.n + 1 →
        t.returned = some ⟨b.start, b.n + 1, .fallthroughCap, .fallthrough (b.cur + 4#32)⟩)
    ∧ (isBranchWord w = false → b.n + 1 < b.max →
        t.returned = none ∧ t.builder = { b with n := b.n + 1, cur := b.cur + 4#32 })

/-- 44_unit_builder.md R233 (decision D25). That a form with one successor is reported with one is the model's choice
of the two R233 allows (log 13); that the step which runs the branch returns the unit is log 7. -/
def Obligations.ExitDescriptorOfABranch : Prop :=
  ∀ (s t : State) (w : Word), s.fetch s.pc = some w → s.breakpointAt s.pc = false →
    (s.builder.phase = .opened → s.builder.cur = s.pc) → isBranchWord w = true → step s = .next t →
    let cc := (field w 24 4).toNat
    let next := s.pc + 4#32
    let target : Word := BitVec.ofInt 32 ((s.pc.toNat : Int) + 4 + 4 * (field w 0 24).toInt)
    let notTaken := if cc = 7 then none else some next
    (cc = 15 → t.returned.map ClosedUnit.exit = some (.direct none (some next)))
    ∧ (cc ≠ 15 → bit w 29 = true → t.returned.map ClosedUnit.exit = some (.direct (some target) notTaken))
    ∧ (cc ≠ 15 → bit w 29 = false → t.returned.map ClosedUnit.exit = some (.indirect notTaken))

/-- 44_unit_builder.md R240: the operations perform exactly the state transition of the pseudocode. Their
representation is the model's (decision D27, log 17). -/
def Obligations.EmittedOperationsPerformTheInstruction : Prop :=
  ∀ (i : Instr) (s : State),
    (∀ ops, emit s.cfg s.pc i = .ok ops → applyOps ops s = exec i s)
    ∧ ∀ signal, emit s.cfg s.pc i = .error signal → exec i s = .fault signal

/-- 44_unit_builder.md R240, 20_memory.md R53, 42_memory_ops.md R175 for the memory accesses. That each instruction
emits exactly one control transfer is the model's representation (decision D27, log 17): R240 fixes the kinds, and a
conditional branch could be emitted as two transfers. -/
def Obligations.OneTransferAndAtMostOneAccess : Prop :=
  ∀ (cfg : Config) (a0 : Word) (i : Instr) (ops : List Operation), emit cfg a0 i = .ok ops →
    (ops.filter (fun op => op.kind == .controlTransfer)).length = 1
    ∧ (ops.filter (fun op => op.kind == .memoryAccess)).length
        = if bit (encodeWord i) 31 && !bit (encodeWord i) 30 then 1 else 0

/-- 44_unit_builder.md R244, sharpened by R242 (no fetch outside the unit), R224 (the page) and 30_encoding.md R95
(ignored bits). -/
def Obligations.BuildingIsRepeatable : Prop :=
  (∀ (s s' : State) (start : Word) (cap : Nat), 1 ≤ cap → s.cfg = s'.cfg →
    (∀ k < cap, 4 * k < s.cfg.pageSize - start.toNat % s.cfg.pageSize →
      (s.fetch (start + BitVec.ofNat 32 (4 * k))).map decodeWord
          = (s'.fetch (start + BitVec.ofNat 32 (4 * k))).map decodeWord
        ∧ s.breakpointAt (start + BitVec.ofNat 32 (4 * k)) = s'.breakpointAt (start + BitVec.ofNat 32 (4 * k))) →
    build s start cap = build s' start cap)
    ∧ ∀ (ops : List Operation) (s : State) (b : Builder),
        applyOps ops (s.setBuilder b) = mapNext (fun t => t.setBuilder b) (applyOps ops s)

/-- 44_unit_builder.md R234. One closing reason and immutability hold because a unit is a value with one reason; the
error part is R232, R243. -/
def Obligations.BuiltUnitsKeepTheUnitRules : Prop :=
  ∀ (s : State) (start : Word) (cap : Nat), 1 ≤ cap →
    match build s start cap with
    | .unit u reason =>
      u.start = start ∧ u.n ≤ cap ∧ 4 * u.n ≤ s.cfg.pageSize - start.toNat % s.cfg.pageSize
      ∧ (reason = .fallthroughCap ∨ reason = .branchExit ∨ reason = .breakpointHit)
      ∧ (reason ≠ .breakpointHit → 1 ≤ u.n)
      ∧ u.operations.length = u.n + (if reason = .fallthroughCap then 1 else 0)
      ∧ ∀ k < u.n, ∃ w ops, s.fetch (start + BitVec.ofNat 32 (4 * k)) = some w
          ∧ s.breakpointAt (start + BitVec.ofNat 32 (4 * k)) = false
          ∧ emit s.cfg (start + BitVec.ofNat 32 (4 * k)) (decodeWord w) = .ok ops ∧ u.operations[k]? = some ops
          ∧ (isBranchWord w = true ↔ reason = .branchExit ∧ k + 1 = u.n)
    | .error signal =>
      ∃ k < cap, s.breakpointAt (start + BitVec.ofNat 32 (4 * k)) = false
        ∧ ((s.fetch (start + BitVec.ofNat 32 (4 * k)) = none
              ∧ signal = .memoryFault .fetch (start + BitVec.ofNat 32 (4 * k)) (start + BitVec.ofNat 32 (4 * k)))
          ∨ (signal = .unsupportedOperation (start + BitVec.ofNat 32 (4 * k))
              ∧ ∃ w, s.fetch (start + BitVec.ofNat 32 (4 * k)) = some w
                ∧ emit s.cfg (start + BitVec.ofNat 32 (4 * k)) (decodeWord w) = .error signal))

/-- 44_unit_builder.md R245, with the continuation of R230 among the operations. A signal aborts both at the same
instruction (R232). -/
def Obligations.RunningAUnitIsSteppingThroughIt : Prop :=
  ∀ (s : State) (u : TranslationUnit) (reason : CloseReason), build s s.pc s.maxInsns = .unit u reason →
    mapNext State.forgetBuilder (runOperations u.operations s)
      = mapNext State.forgetBuilder (core.run u.n s)

/-- Runs from states that differ only in the Builder, MAX_INSNS and PAGE_SIZE stay equal up to those, step for step
(44_unit_builder.md R245, 10_state.md R31, 44_unit_builder.md R223, 44_unit_builder.md R224). -/
def Obligations.UnitBoundariesAreInvisible : Prop :=
  ∀ (k : Nat) (s s' : State), s.forgetUnits = s'.forgetUnits →
    mapNext State.forgetUnits (core.run k s) = mapNext State.forgetUnits (core.run k s')

/-- 60_exceptions.md R285. Ascending order is the spec's own inference; the non-general slots H and pc are the model's
choice (log 19). -/
def Obligations.RegisterDumpShowsTheState : Prop :=
  ∀ s : State,
    (∀ r k : Fin 4, (s.dump.rows[r.val]?.bind fun row => row[k.val]?) = some (s.reg (Fin.ofNat 16 (4 * r.val + k.val))))
    ∧ s.dump.rows.length = 4 ∧ s.dump.slots = [s.H, s.pc]
    ∧ s.dump.flags = [s.C.toNat, s.V.toNat, s.N.toNat, s.Z.toNat, s.I.toNat]

/-- 44_unit_builder.md R222, last row and last sentence, with R220 and R241. That the step which closes a unit also
returns it is log 7; an abort's error is a fault outcome (log 5). -/
def Obligations.ClosedUnitIsReturnedAndTheBuilderIsIdle : Prop :=
  (∀ s t : State, step s = .next t →
    (t.builder.phase = .opened ∧ t.returned = none ∧ t.builder.start = s.openUnit.builder.start)
    ∨ (t.builder.phase = .idle ∧ ∃ u, t.returned = some u ∧ u.start = s.openUnit.builder.start ∧ match u.reason with
        | .fallthroughCap => ∃ next, u.exit = .fallthrough next
        | .branchExit => (∃ taken notTaken, u.exit = .direct taken notTaken) ∨ ∃ notTaken, u.exit = .indirect notTaken
        | .breakpointHit => ∃ resume, u.exit = .terminal resume
        | .aborted _ => False))
    ∧ ∀ (s : State) (reason : CloseReason), s.builder.phase = .closed reason →
        s.returnUnit.builder.phase = .idle ∧ step s = step s.returnUnit

end Statements
end

