-- ==== Sys2Proof/Laws/Decode.lean ====
section
/-! SUPPORT. Lemmas about bit fields, byte order and the words the encoder writes: what each field of a word of each
format holds, and what such a word decodes to. -/

namespace Sys2Proof

/-! ### Fields and numberings -/

@[simp] theorem regOfBits_regBits (r : Reg) : regOfBits (regBits r) = r := by
  ext; simp [regOfBits, regBits]

@[simp] theorem regBits_regOfBits (f : BitVec 4) : regBits (regOfBits f) = f := by
  simp [regOfBits, regBits]

@[simp] theorem aluSelOfBits_bits (op : AluSel) : aluSelOfBits (aluSelBits op) = op := by cases op <;> rfl

@[simp] theorem condSelOfBits_bits (sel : CondSel) : condSelOfBits (condSelBits sel) = sel := by cases sel <;> rfl

theorem aluSelBits_ofBits (f : BitVec 4) : aluSelBits (aluSelOfBits f) = f := by revert f; decide

theorem condSelBits_ofBits (f : BitVec 3) : condSelBits (condSelOfBits f) = f := by revert f; decide

theorem getLsbD_field (w : Word) (lo n i : Nat) : (field w lo n).getLsbD i = (decide (i < n) && bit w (lo + i)) := by
  simp [field, bit]

theorem bit_put {n : Nat} (f : BitVec n) (lo i : Nat) :
    bit (put f lo) i = (decide (i < 32) && decide (lo ≤ i) && f.getLsbD (i - lo)) := by
  by_cases h : i < 32 <;> by_cases h' : i < lo <;> simp [bit, put, h, h']
  · intro h2; omega

theorem bit_or (v w : Word) (i : Nat) : bit (v ||| w) i = (bit v i || bit w i) := by simp [bit]

theorem bit_and (v w : Word) (i : Nat) : bit (v &&& w) i = (bit v i && bit w i) := by simp [bit]

theorem word_eq_of_bit {v w : Word} (h : ∀ i < 32, bit v i = bit w i) : v = w :=
  BitVec.eq_of_getLsbD_eq h

theorem field_eq_of_bit {n : Nat} {f g : BitVec n} (h : ∀ i < n, f.getLsbD i = g.getLsbD i) : f = g :=
  BitVec.eq_of_getLsbD_eq h

/-! ### Byte order -/

@[simp] theorem byteOf_wordOfBytes_zero (b0 b1 b2 b3 : Byte) : byteOf (wordOfBytes b0 b1 b2 b3) 0 = b0 := by
  ext i hi; simp [byteOf, wordOfBytes, field, put]; interval_cases i <;> simp

@[simp] theorem byteOf_wordOfBytes_one (b0 b1 b2 b3 : Byte) : byteOf (wordOfBytes b0 b1 b2 b3) 1 = b1 := by
  ext i hi; simp [byteOf, wordOfBytes, field, put]; interval_cases i <;> simp

@[simp] theorem byteOf_wordOfBytes_two (b0 b1 b2 b3 : Byte) : byteOf (wordOfBytes b0 b1 b2 b3) 2 = b2 := by
  ext i hi; simp [byteOf, wordOfBytes, field, put]; interval_cases i <;> simp

@[simp] theorem byteOf_wordOfBytes_three (b0 b1 b2 b3 : Byte) : byteOf (wordOfBytes b0 b1 b2 b3) 3 = b3 := by
  ext i hi; simp [byteOf, wordOfBytes, field, put]; interval_cases i <;> simp

@[simp] theorem wordOfBytes_byteOf (w : Word) :
    wordOfBytes (byteOf w 0) (byteOf w 1) (byteOf w 2) (byteOf w 3) = w := by
  ext i hi; simp [byteOf, wordOfBytes, field, put]; interval_cases i <;> simp

theorem decode_bytes (w : Word) (rest : List Byte) :
    decode (byteOf w 0 :: byteOf w 1 :: byteOf w 2 :: byteOf w 3 :: rest) = .ok (decodeWord w, rest) := by
  simp [decode]

/-! ### What a word of each format decodes to -/

theorem decodeWord_regWord (u v : Bool) (op : AluSel) (a b c : Reg) :
    decodeWord (regWord u v op a b c) = regForm u v op a b c := by
  have h31 : bit (regWord u v op a b c) 31 = false := by simp [bit, regWord, put]
  have h30 : bit (regWord u v op a b c) 30 = false := by simp [bit, regWord, put]
  have hu : bit (regWord u v op a b c) 29 = u := by simp [bit, regWord, put]
  have hv : bit (regWord u v op a b c) 28 = v := by simp [bit, regWord, put]
  have ha : field (regWord u v op a b c) 24 4 = regBits a := by
    ext i hi; simp [regWord, field, put]; interval_cases i <;> simp
  have hb : field (regWord u v op a b c) 20 4 = regBits b := by
    ext i hi; simp [regWord, field, put]; interval_cases i <;> simp
  have hop : field (regWord u v op a b c) 16 4 = aluSelBits op := by
    ext i hi; simp [regWord, field, put]; interval_cases i <;> simp
  have hc : field (regWord u v op a b c) 0 4 = regBits c := by
    ext i hi; simp [regWord, field, put]; interval_cases i <;> simp
  simp [decodeWord, h31, h30, hu, hv, ha, hb, hop, hc]

theorem decodeWord_immWord (u v : Bool) (op : AluSel) (a b : Reg) (imm : BitVec 16) :
    decodeWord (immWord u v op a b imm) = immForm u v op a b imm := by
  have h31 : bit (immWord u v op a b imm) 31 = false := by simp [bit, immWord, put]
  have h30 : bit (immWord u v op a b imm) 30 = true := by simp [bit, immWord, put]
  have hu : bit (immWord u v op a b imm) 29 = u := by simp [bit, immWord, put]
  have hv : bit (immWord u v op a b imm) 28 = v := by simp [bit, immWord, put]
  have ha : field (immWord u v op a b imm) 24 4 = regBits a := by
    ext i hi; simp [immWord, field, put]; interval_cases i <;> simp
  have hb : field (immWord u v op a b imm) 20 4 = regBits b := by
    ext i hi; simp [immWord, field, put]; interval_cases i <;> simp
  have hop : field (immWord u v op a b imm) 16 4 = aluSelBits op := by
    ext i hi; simp [immWord, field, put]; interval_cases i <;> simp
  have himm : field (immWord u v op a b imm) 0 16 = imm := by
    ext i hi; simp [immWord, field, put]; interval_cases i <;> simp
  simp [decodeWord, h31, h30, hu, hv, ha, hb, hop, himm]

theorem decodeWord_memWord (u v : Bool) (a b : Reg) (off : BitVec 20) :
    decodeWord (memWord u v a b off) = memForm u v a b off := by
  have h31 : bit (memWord u v a b off) 31 = true := by simp [bit, memWord, put]
  have h30 : bit (memWord u v a b off) 30 = false := by simp [bit, memWord, put]
  have hu : bit (memWord u v a b off) 29 = u := by simp [bit, memWord, put]
  have hv : bit (memWord u v a b off) 28 = v := by simp [bit, memWord, put]
  have ha : field (memWord u v a b off) 24 4 = regBits a := by
    ext i hi; simp [memWord, field, put]; interval_cases i <;> simp
  have hb : field (memWord u v a b off) 20 4 = regBits b := by
    ext i hi; simp [memWord, field, put]; interval_cases i <;> simp
  have hoff : field (memWord u v a b off) 0 20 = off := by
    ext i hi; simp [memWord, field, put]; interval_cases i <;> simp
  simp [decodeWord, h31, h30, hu, hv, ha, hb, hoff]

theorem decodeWord_brrWord (link : Bool) (cc : Cond) (c : Reg) :
    decodeWord (brrWord link cc c) = branchInd link cc c := by
  have h31 : bit (brrWord link cc c) 31 = true := by simp [bit, brrWord, put]
  have h30 : bit (brrWord link cc c) 30 = true := by simp [bit, brrWord, put]
  have hu : bit (brrWord link cc c) 29 = false := by simp [bit, brrWord, put]
  have hv : bit (brrWord link cc c) 28 = link := by simp [bit, brrWord, put]
  have hi : bit (brrWord link cc c) 27 = cc.inv := by simp [bit, brrWord, put]
  have hs : field (brrWord link cc c) 24 3 = condSelBits cc.sel := by
    ext i hi; simp [brrWord, field, put]; interval_cases i <;> simp
  have hc : field (brrWord link cc c) 0 4 = regBits c := by
    ext i hi; simp [brrWord, field, put]; interval_cases i <;> simp
  simp [decodeWord, condOfWord, h31, h30, hu, hv, hi, hs, hc]

theorem decodeWord_briWord (link : Bool) (cc : Cond) (off : BitVec 24) :
    decodeWord (briWord link cc off) = branchRel link cc off := by
  have h31 : bit (briWord link cc off) 31 = true := by simp [bit, briWord, put]
  have h30 : bit (briWord link cc off) 30 = true := by simp [bit, briWord, put]
  have hu : bit (briWord link cc off) 29 = true := by simp [bit, briWord, put]
  have hv : bit (briWord link cc off) 28 = link := by simp [bit, briWord, put]
  have hi : bit (briWord link cc off) 27 = cc.inv := by simp [bit, briWord, put]
  have hs : field (briWord link cc off) 24 3 = condSelBits cc.sel := by
    ext i hi; simp [briWord, field, put]; interval_cases i <;> simp
  have hoff : field (briWord link cc off) 0 24 = off := by
    ext i hi; simp [briWord, field, put]; interval_cases i <;> simp
  simp [decodeWord, condOfWord, h31, h30, hu, hv, hi, hs, hoff]

/-! ### A word's format, read backwards: the fields decide the instruction -/

theorem decodeWord_reg {w : Word} (h31 : bit w 31 = false) (h30 : bit w 30 = false) :
    decodeWord w = regForm (bit w 29) (bit w 28) (aluSelOfBits (field w 16 4)) (regOfBits (field w 24 4))
      (regOfBits (field w 20 4)) (regOfBits (field w 0 4)) := by
  simp [decodeWord, h31, h30]

theorem decodeWord_imm {w : Word} (h31 : bit w 31 = false) (h30 : bit w 30 = true) :
    decodeWord w = immForm (bit w 29) (bit w 28) (aluSelOfBits (field w 16 4)) (regOfBits (field w 24 4))
      (regOfBits (field w 20 4)) (field w 0 16) := by
  simp [decodeWord, h31, h30]

theorem decodeWord_mem {w : Word} (h31 : bit w 31 = true) (h30 : bit w 30 = false) :
    decodeWord w = memForm (bit w 29) (bit w 28) (regOfBits (field w 24 4)) (regOfBits (field w 20 4))
      (field w 0 20) := by
  simp [decodeWord, h31, h30]

theorem decodeWord_branch {w : Word} (h : isBranchWord w = true) :
    decodeWord w = if bit w 29 then branchRel (bit w 28) (condOfWord w) (field w 0 24)
      else branchInd (bit w 28) (condOfWord w) (regOfBits (field w 0 4)) := by
  simp only [isBranchWord, Bool.and_eq_true] at h
  simp [decodeWord, h.1, h.2]

end Sys2Proof
end

