-- ==== Sys2Proof/Laws/Memory.lean ====
section
/-! SUPPORT. The laws of a memory: what a read gives after a write, and that writes keep the canonical form. -/

namespace Sys2Proof.Machine

/-! ### Bytes -/

@[simp] theorem Memory.read_write (m : Memory) (a : Nat) (b : Byte) (a' : Nat) :
    (m.write a b).read a' = if a' = a then some b else m.read a' := by
  induction m with
  | nil => simp [Memory.write, Memory.read]
  | cons cell rest ih =>
    obtain ⟨k, b'⟩ := cell
    simp only [Memory.write]
    split
    · simp [Memory.read]
    · split
      · next _ h => subst h; by_cases h' : a' = a <;> simp [Memory.read, h']
      · simp only [Memory.read, ih]
        split <;> split <;> simp_all

@[simp] theorem Memory.get_set (m : Memory) (a : Word) (b : Byte) (a' : Word) :
    (m.set a b).get a' = if a' = a then some b else m.get a' := by
  simp only [Memory.get, Memory.set, Memory.read_write, BitVec.toNat_inj]

/-- A write to a mapped address leaves the set of mapped addresses alone (20_memory.md R61). -/
theorem Memory.mapped_set {m : Memory} {a : Word} (h : m.mapped a = true) (b : Byte) (a' : Word) :
    (m.set a b).mapped a' = m.mapped a' := by
  simp only [Memory.mapped, Memory.get_set]
  split
  · next e => subst e; simpa [Memory.mapped] using h.symm
  · rfl

/-! ### Words -/

/-- The four addresses of a word differ, also across the wrap (20_memory.md R58). -/
theorem word_addresses (a : Word) :
    a + 1#32 ≠ a ∧ a + 2#32 ≠ a ∧ a + 3#32 ≠ a ∧ a + 2#32 ≠ a + 1#32 ∧ a + 3#32 ≠ a + 1#32 ∧ a + 3#32 ≠ a + 2#32 := by
  refine ⟨?_, ?_, ?_, ?_, ?_, ?_⟩ <;> intro h <;> bv_omega

theorem Memory.get_writeWord (m : Memory) (a w : Word) (a' : Word) :
    (m.writeWord a w).get a' =
      if a' = a + 3#32 then some (byteOf w 3) else if a' = a + 2#32 then some (byteOf w 2)
      else if a' = a + 1#32 then some (byteOf w 1) else if a' = a then some (byteOf w 0) else m.get a' := by
  simp only [Memory.writeWord, Memory.get_set]

/-- A word read back where a word was written is that word (20_memory.md R52, R63). -/
@[simp] theorem Memory.readWord_writeWord (m : Memory) (a w : Word) : (m.writeWord a w).readWord a = some w := by
  obtain ⟨h1, h2, h3, h21, h31, h32⟩ := word_addresses a
  simp only [Memory.readWord, Memory.get_writeWord, h1.symm, h2.symm, h3.symm, h1, h21, h21.symm, h31.symm, h32.symm, h2,
    if_true, if_false, wordOfBytes_byteOf]

/-- A word is readable exactly where its four bytes are mapped (log 14). -/
theorem Memory.readWord_isSome (m : Memory) (a : Word) : (m.readWord a).isSome = m.mappedWord a := by
  simp only [Memory.readWord, Memory.mappedWord, Memory.mapped]
  cases m.get a <;> cases m.get (a + 1#32) <;> cases m.get (a + 2#32) <;> cases m.get (a + 3#32) <;> rfl

/-- What a completed word read says of the four bytes (20_memory.md R52, R55). -/
theorem Memory.readWord_eq_some {m : Memory} {a w : Word} (h : m.readWord a = some w) :
    m.get a = some (byteOf w 0) ∧ m.get (a + 1#32) = some (byteOf w 1)
      ∧ m.get (a + 2#32) = some (byteOf w 2) ∧ m.get (a + 3#32) = some (byteOf w 3) := by
  unfold Memory.readWord at h
  split at h
  · next b0 b1 b2 b3 h0 h1 h2 h3 =>
    cases h; simp [h0, h1, h2, h3]
  · cases h

theorem Memory.readWord_of_bytes {m : Memory} {a : Word} {b0 b1 b2 b3 : Byte} (h0 : m.get a = some b0)
    (h1 : m.get (a + 1#32) = some b1) (h2 : m.get (a + 2#32) = some b2) (h3 : m.get (a + 3#32) = some b3) :
    m.readWord a = some (wordOfBytes b0 b1 b2 b3) := by
  simp only [Memory.readWord, h0, h1, h2, h3]

/-- A word write to mapped bytes leaves the set of mapped addresses alone (20_memory.md R61). -/
theorem Memory.mapped_writeWord {m : Memory} {a : Word} (h : m.mappedWord a = true) (w a' : Word) :
    (m.writeWord a w).mapped a' = m.mapped a' := by
  simp only [Memory.mappedWord, Bool.and_eq_true] at h
  obtain ⟨⟨⟨h0, h1⟩, h2⟩, h3⟩ := h
  have e1 := fun x => Memory.mapped_set h0 (byteOf w 0) x
  have e2 := fun x => Memory.mapped_set ((e1 (a + 1#32)).trans h1) (byteOf w 1) x
  have e3 := fun x => Memory.mapped_set ((e2 (a + 2#32)).trans ((e1 _).trans h2)) (byteOf w 2) x
  have e4 := fun x => Memory.mapped_set ((e3 (a + 3#32)).trans ((e2 _).trans ((e1 _).trans h3))) (byteOf w 3) x
  exact (e4 a').trans ((e3 a').trans ((e2 a').trans (e1 a')))

/-! ### The canonical form -/

theorem risesFrom_write (m : Memory) (a : Nat) (b : Byte) (low : Nat) (h : risesFrom low m = true) (hl : low ≤ a) :
    risesFrom low (m.write a b) = true := by
  induction m generalizing low with
  | nil => simp [Memory.write, risesFrom, hl]
  | cons cell rest ih =>
    obtain ⟨k, b'⟩ := cell
    simp only [risesFrom, Bool.and_eq_true, decide_eq_true_eq] at h
    simp only [Memory.write]
    split
    · simp [risesFrom, hl, h.2]; omega
    · split
      · next _ e => subst e; simp [risesFrom, hl, h.2]
      · simp only [risesFrom, Bool.and_eq_true, decide_eq_true_eq]
        exact ⟨h.1, ih (k + 1) h.2 (by omega)⟩

theorem all_write (m : Memory) (a : Nat) (b : Byte) (p : Host.Cell → Bool) (h : m.all p = true)
    (hp : p (a, b) = true) : (m.write a b).all p = true := by
  induction m with
  | nil => simp [Memory.write, hp]
  | cons cell rest ih =>
    obtain ⟨k, b'⟩ := cell
    simp only [List.all_cons, Bool.and_eq_true] at h
    simp only [Memory.write]
    split
    · simp [hp, h.1, h.2]
    · split
      · simp [hp, h.2]
      · simp [h.1, ih h.2]

/-- Writing a byte at an address of the space keeps the canonical form. -/
theorem Memory.wf_set {m : Memory} (h : m.wf = true) (a : Word) (b : Byte) : Memory.wf (m.set a b) = true := by
  simp only [Memory.wf, cellsWf, Bool.and_eq_true] at h ⊢
  exact ⟨risesFrom_write m _ b 0 h.1 (Nat.zero_le _),
    all_write m _ b _ h.2 (by simpa using a.isLt)⟩

/-- Writing a word keeps the canonical form. -/
theorem Memory.wf_writeWord {m : Memory} (h : m.wf = true) (a w : Word) : Memory.wf (m.writeWord a w) = true :=
  Memory.wf_set (Memory.wf_set (Memory.wf_set (Memory.wf_set h _ _) _ _) _ _) _ _

end Sys2Proof.Machine
end

