-- ==== Sys2Proof/Laws/State.lean ====
section
/-! SUPPORT. One lemma per field per update, so that no later proof unfolds a record update; and what a register reads as
after each. -/

namespace Sys2Proof.Machine

@[simp] theorem State.setReg_x (s : State) (i : Reg) (w : Word) : (s.setReg i w).x = s.x.set i.val w i.isLt := rfl
@[simp] theorem State.setReg_H (s : State) (i : Reg) (w : Word) : (s.setReg i w).H = s.H := rfl
@[simp] theorem State.setReg_pc (s : State) (i : Reg) (w : Word) : (s.setReg i w).pc = s.pc := rfl
@[simp] theorem State.setReg_N (s : State) (i : Reg) (w : Word) : (s.setReg i w).N = s.N := rfl
@[simp] theorem State.setReg_Z (s : State) (i : Reg) (w : Word) : (s.setReg i w).Z = s.Z := rfl
@[simp] theorem State.setReg_C (s : State) (i : Reg) (w : Word) : (s.setReg i w).C = s.C := rfl
@[simp] theorem State.setReg_V (s : State) (i : Reg) (w : Word) : (s.setReg i w).V = s.V := rfl
@[simp] theorem State.setReg_I (s : State) (i : Reg) (w : Word) : (s.setReg i w).I = s.I := rfl
@[simp] theorem State.setReg_builder (s : State) (i : Reg) (w : Word) : (s.setReg i w).builder = s.builder := rfl
@[simp] theorem State.setReg_returned (s : State) (i : Reg) (w : Word) : (s.setReg i w).returned = s.returned := rfl
@[simp] theorem State.setReg_mem (s : State) (i : Reg) (w : Word) : (s.setReg i w).mem = s.mem := rfl
@[simp] theorem State.setReg_fetchMap (s : State) (i : Reg) (w : Word) : (s.setReg i w).fetchMap = s.fetchMap := rfl
@[simp] theorem State.setReg_breakpoints (s : State) (i : Reg) (w : Word) : (s.setReg i w).breakpoints = s.breakpoints := rfl
@[simp] theorem State.setReg_maxInsns (s : State) (i : Reg) (w : Word) : (s.setReg i w).maxInsns = s.maxInsns := rfl
@[simp] theorem State.setReg_cfg (s : State) (i : Reg) (w : Word) : (s.setReg i w).cfg = s.cfg := rfl

/-- A register reads back what was last written to it, and a write leaves the others alone (10_state.md R22). -/
@[simp] theorem State.setReg_reg (s : State) (i : Reg) (w : Word) (r : Reg) :
    (s.setReg i w).reg r = if r = i then w else s.reg r := by
  by_cases h : r = i
  · subst h; simp [State.reg, State.setReg, Vector.get_eq_getElem]
  · have h' : i.val ≠ r.val := fun e => h (Fin.ext e.symm)
    simp [State.reg, State.setReg, Vector.get_eq_getElem, h, h']

@[simp] theorem State.setH_x (s : State) (w : Word) : (s.setH w).x = s.x := rfl
@[simp] theorem State.setH_H (s : State) (w : Word) : (s.setH w).H = w := rfl
@[simp] theorem State.setH_pc (s : State) (w : Word) : (s.setH w).pc = s.pc := rfl
@[simp] theorem State.setH_N (s : State) (w : Word) : (s.setH w).N = s.N := rfl
@[simp] theorem State.setH_Z (s : State) (w : Word) : (s.setH w).Z = s.Z := rfl
@[simp] theorem State.setH_C (s : State) (w : Word) : (s.setH w).C = s.C := rfl
@[simp] theorem State.setH_V (s : State) (w : Word) : (s.setH w).V = s.V := rfl
@[simp] theorem State.setH_I (s : State) (w : Word) : (s.setH w).I = s.I := rfl
@[simp] theorem State.setH_builder (s : State) (w : Word) : (s.setH w).builder = s.builder := rfl
@[simp] theorem State.setH_returned (s : State) (w : Word) : (s.setH w).returned = s.returned := rfl
@[simp] theorem State.setH_mem (s : State) (w : Word) : (s.setH w).mem = s.mem := rfl
@[simp] theorem State.setH_fetchMap (s : State) (w : Word) : (s.setH w).fetchMap = s.fetchMap := rfl
@[simp] theorem State.setH_breakpoints (s : State) (w : Word) : (s.setH w).breakpoints = s.breakpoints := rfl
@[simp] theorem State.setH_maxInsns (s : State) (w : Word) : (s.setH w).maxInsns = s.maxInsns := rfl
@[simp] theorem State.setH_cfg (s : State) (w : Word) : (s.setH w).cfg = s.cfg := rfl
@[simp] theorem State.setH_reg (s : State) (w : Word) (r : Reg) : (s.setH w).reg r = s.reg r := rfl

@[simp] theorem State.setZN_x (s : State) (d : Word) : (s.setZN d).x = s.x := rfl
@[simp] theorem State.setZN_H (s : State) (d : Word) : (s.setZN d).H = s.H := rfl
@[simp] theorem State.setZN_pc (s : State) (d : Word) : (s.setZN d).pc = s.pc := rfl
@[simp] theorem State.setZN_N (s : State) (d : Word) : (s.setZN d).N = negativeFlag d := rfl
@[simp] theorem State.setZN_Z (s : State) (d : Word) : (s.setZN d).Z = zeroFlag d := rfl
@[simp] theorem State.setZN_C (s : State) (d : Word) : (s.setZN d).C = s.C := rfl
@[simp] theorem State.setZN_V (s : State) (d : Word) : (s.setZN d).V = s.V := rfl
@[simp] theorem State.setZN_I (s : State) (d : Word) : (s.setZN d).I = s.I := rfl
@[simp] theorem State.setZN_builder (s : State) (d : Word) : (s.setZN d).builder = s.builder := rfl
@[simp] theorem State.setZN_returned (s : State) (d : Word) : (s.setZN d).returned = s.returned := rfl
@[simp] theorem State.setZN_mem (s : State) (d : Word) : (s.setZN d).mem = s.mem := rfl
@[simp] theorem State.setZN_fetchMap (s : State) (d : Word) : (s.setZN d).fetchMap = s.fetchMap := rfl
@[simp] theorem State.setZN_breakpoints (s : State) (d : Word) : (s.setZN d).breakpoints = s.breakpoints := rfl
@[simp] theorem State.setZN_maxInsns (s : State) (d : Word) : (s.setZN d).maxInsns = s.maxInsns := rfl
@[simp] theorem State.setZN_cfg (s : State) (d : Word) : (s.setZN d).cfg = s.cfg := rfl
@[simp] theorem State.setZN_reg (s : State) (d : Word) (r : Reg) : (s.setZN d).reg r = s.reg r := rfl

@[simp] theorem State.setCV_x (s : State) (c v : Bool) : (s.setCV c v).x = s.x := rfl
@[simp] theorem State.setCV_H (s : State) (c v : Bool) : (s.setCV c v).H = s.H := rfl
@[simp] theorem State.setCV_pc (s : State) (c v : Bool) : (s.setCV c v).pc = s.pc := rfl
@[simp] theorem State.setCV_N (s : State) (c v : Bool) : (s.setCV c v).N = s.N := rfl
@[simp] theorem State.setCV_Z (s : State) (c v : Bool) : (s.setCV c v).Z = s.Z := rfl
@[simp] theorem State.setCV_C (s : State) (c v : Bool) : (s.setCV c v).C = c := rfl
@[simp] theorem State.setCV_V (s : State) (c v : Bool) : (s.setCV c v).V = v := rfl
@[simp] theorem State.setCV_I (s : State) (c v : Bool) : (s.setCV c v).I = s.I := rfl
@[simp] theorem State.setCV_builder (s : State) (c v : Bool) : (s.setCV c v).builder = s.builder := rfl
@[simp] theorem State.setCV_returned (s : State) (c v : Bool) : (s.setCV c v).returned = s.returned := rfl
@[simp] theorem State.setCV_mem (s : State) (c v : Bool) : (s.setCV c v).mem = s.mem := rfl
@[simp] theorem State.setCV_fetchMap (s : State) (c v : Bool) : (s.setCV c v).fetchMap = s.fetchMap := rfl
@[simp] theorem State.setCV_breakpoints (s : State) (c v : Bool) : (s.setCV c v).breakpoints = s.breakpoints := rfl
@[simp] theorem State.setCV_maxInsns (s : State) (c v : Bool) : (s.setCV c v).maxInsns = s.maxInsns := rfl
@[simp] theorem State.setCV_cfg (s : State) (c v : Bool) : (s.setCV c v).cfg = s.cfg := rfl
@[simp] theorem State.setCV_reg (s : State) (c v : Bool) (r : Reg) : (s.setCV c v).reg r = s.reg r := rfl

@[simp] theorem State.setPc_x (s : State) (a : Word) : (s.setPc a).x = s.x := rfl
@[simp] theorem State.setPc_H (s : State) (a : Word) : (s.setPc a).H = s.H := rfl
@[simp] theorem State.setPc_pc (s : State) (a : Word) : (s.setPc a).pc = a := rfl
@[simp] theorem State.setPc_N (s : State) (a : Word) : (s.setPc a).N = s.N := rfl
@[simp] theorem State.setPc_Z (s : State) (a : Word) : (s.setPc a).Z = s.Z := rfl
@[simp] theorem State.setPc_C (s : State) (a : Word) : (s.setPc a).C = s.C := rfl
@[simp] theorem State.setPc_V (s : State) (a : Word) : (s.setPc a).V = s.V := rfl
@[simp] theorem State.setPc_I (s : State) (a : Word) : (s.setPc a).I = s.I := rfl
@[simp] theorem State.setPc_builder (s : State) (a : Word) : (s.setPc a).builder = s.builder := rfl
@[simp] theorem State.setPc_returned (s : State) (a : Word) : (s.setPc a).returned = s.returned := rfl
@[simp] theorem State.setPc_mem (s : State) (a : Word) : (s.setPc a).mem = s.mem := rfl
@[simp] theorem State.setPc_fetchMap (s : State) (a : Word) : (s.setPc a).fetchMap = s.fetchMap := rfl
@[simp] theorem State.setPc_breakpoints (s : State) (a : Word) : (s.setPc a).breakpoints = s.breakpoints := rfl
@[simp] theorem State.setPc_maxInsns (s : State) (a : Word) : (s.setPc a).maxInsns = s.maxInsns := rfl
@[simp] theorem State.setPc_cfg (s : State) (a : Word) : (s.setPc a).cfg = s.cfg := rfl
@[simp] theorem State.setPc_reg (s : State) (a : Word) (r : Reg) : (s.setPc a).reg r = s.reg r := rfl

@[simp] theorem State.setMem_x (s : State) (m : Memory) : (s.setMem m).x = s.x := rfl
@[simp] theorem State.setMem_H (s : State) (m : Memory) : (s.setMem m).H = s.H := rfl
@[simp] theorem State.setMem_pc (s : State) (m : Memory) : (s.setMem m).pc = s.pc := rfl
@[simp] theorem State.setMem_N (s : State) (m : Memory) : (s.setMem m).N = s.N := rfl
@[simp] theorem State.setMem_Z (s : State) (m : Memory) : (s.setMem m).Z = s.Z := rfl
@[simp] theorem State.setMem_C (s : State) (m : Memory) : (s.setMem m).C = s.C := rfl
@[simp] theorem State.setMem_V (s : State) (m : Memory) : (s.setMem m).V = s.V := rfl
@[simp] theorem State.setMem_I (s : State) (m : Memory) : (s.setMem m).I = s.I := rfl
@[simp] theorem State.setMem_builder (s : State) (m : Memory) : (s.setMem m).builder = s.builder := rfl
@[simp] theorem State.setMem_returned (s : State) (m : Memory) : (s.setMem m).returned = s.returned := rfl
@[simp] theorem State.setMem_mem (s : State) (m : Memory) : (s.setMem m).mem = m := rfl
@[simp] theorem State.setMem_fetchMap (s : State) (m : Memory) : (s.setMem m).fetchMap = s.fetchMap := rfl
@[simp] theorem State.setMem_breakpoints (s : State) (m : Memory) : (s.setMem m).breakpoints = s.breakpoints := rfl
@[simp] theorem State.setMem_maxInsns (s : State) (m : Memory) : (s.setMem m).maxInsns = s.maxInsns := rfl
@[simp] theorem State.setMem_cfg (s : State) (m : Memory) : (s.setMem m).cfg = s.cfg := rfl
@[simp] theorem State.setMem_reg (s : State) (m : Memory) (r : Reg) : (s.setMem m).reg r = s.reg r := rfl

@[simp] theorem State.setBuilder_x (s : State) (b : Builder) : (s.setBuilder b).x = s.x := rfl
@[simp] theorem State.setBuilder_H (s : State) (b : Builder) : (s.setBuilder b).H = s.H := rfl
@[simp] theorem State.setBuilder_pc (s : State) (b : Builder) : (s.setBuilder b).pc = s.pc := rfl
@[simp] theorem State.setBuilder_N (s : State) (b : Builder) : (s.setBuilder b).N = s.N := rfl
@[simp] theorem State.setBuilder_Z (s : State) (b : Builder) : (s.setBuilder b).Z = s.Z := rfl
@[simp] theorem State.setBuilder_C (s : State) (b : Builder) : (s.setBuilder b).C = s.C := rfl
@[simp] theorem State.setBuilder_V (s : State) (b : Builder) : (s.setBuilder b).V = s.V := rfl
@[simp] theorem State.setBuilder_I (s : State) (b : Builder) : (s.setBuilder b).I = s.I := rfl
@[simp] theorem State.setBuilder_builder (s : State) (b : Builder) : (s.setBuilder b).builder = b := rfl
@[simp] theorem State.setBuilder_returned (s : State) (b : Builder) : (s.setBuilder b).returned = s.returned := rfl
@[simp] theorem State.setBuilder_mem (s : State) (b : Builder) : (s.setBuilder b).mem = s.mem := rfl
@[simp] theorem State.setBuilder_fetchMap (s : State) (b : Builder) : (s.setBuilder b).fetchMap = s.fetchMap := rfl
@[simp] theorem State.setBuilder_breakpoints (s : State) (b : Builder) : (s.setBuilder b).breakpoints = s.breakpoints := rfl
@[simp] theorem State.setBuilder_maxInsns (s : State) (b : Builder) : (s.setBuilder b).maxInsns = s.maxInsns := rfl
@[simp] theorem State.setBuilder_cfg (s : State) (b : Builder) : (s.setBuilder b).cfg = s.cfg := rfl
@[simp] theorem State.setBuilder_reg (s : State) (b : Builder) (r : Reg) : (s.setBuilder b).reg r = s.reg r := rfl

@[simp] theorem State.setReturned_x (s : State) (u : Option ClosedUnit) : (s.setReturned u).x = s.x := rfl
@[simp] theorem State.setReturned_H (s : State) (u : Option ClosedUnit) : (s.setReturned u).H = s.H := rfl
@[simp] theorem State.setReturned_pc (s : State) (u : Option ClosedUnit) : (s.setReturned u).pc = s.pc := rfl
@[simp] theorem State.setReturned_N (s : State) (u : Option ClosedUnit) : (s.setReturned u).N = s.N := rfl
@[simp] theorem State.setReturned_Z (s : State) (u : Option ClosedUnit) : (s.setReturned u).Z = s.Z := rfl
@[simp] theorem State.setReturned_C (s : State) (u : Option ClosedUnit) : (s.setReturned u).C = s.C := rfl
@[simp] theorem State.setReturned_V (s : State) (u : Option ClosedUnit) : (s.setReturned u).V = s.V := rfl
@[simp] theorem State.setReturned_I (s : State) (u : Option ClosedUnit) : (s.setReturned u).I = s.I := rfl
@[simp] theorem State.setReturned_builder (s : State) (u : Option ClosedUnit) : (s.setReturned u).builder = s.builder := rfl
@[simp] theorem State.setReturned_returned (s : State) (u : Option ClosedUnit) : (s.setReturned u).returned = u := rfl
@[simp] theorem State.setReturned_mem (s : State) (u : Option ClosedUnit) : (s.setReturned u).mem = s.mem := rfl
@[simp] theorem State.setReturned_fetchMap (s : State) (u : Option ClosedUnit) : (s.setReturned u).fetchMap = s.fetchMap := rfl
@[simp] theorem State.setReturned_breakpoints (s : State) (u : Option ClosedUnit) : (s.setReturned u).breakpoints = s.breakpoints := rfl
@[simp] theorem State.setReturned_maxInsns (s : State) (u : Option ClosedUnit) : (s.setReturned u).maxInsns = s.maxInsns := rfl
@[simp] theorem State.setReturned_cfg (s : State) (u : Option ClosedUnit) : (s.setReturned u).cfg = s.cfg := rfl
@[simp] theorem State.setReturned_reg (s : State) (u : Option ClosedUnit) (r : Reg) : (s.setReturned u).reg r = s.reg r := rfl

/-! ### The end of a register-class instruction and the link write -/

@[simp] theorem State.finish_x (s : State) (a : Reg) (d : Word) : (s.finish a d).x = s.x.set a.val d a.isLt := rfl
@[simp] theorem State.finish_H (s : State) (a : Reg) (d : Word) : (s.finish a d).H = s.H := rfl
@[simp] theorem State.finish_pc (s : State) (a : Reg) (d : Word) : (s.finish a d).pc = s.next := rfl
@[simp] theorem State.finish_N (s : State) (a : Reg) (d : Word) : (s.finish a d).N = negativeFlag d := rfl
@[simp] theorem State.finish_Z (s : State) (a : Reg) (d : Word) : (s.finish a d).Z = zeroFlag d := rfl
@[simp] theorem State.finish_C (s : State) (a : Reg) (d : Word) : (s.finish a d).C = s.C := rfl
@[simp] theorem State.finish_V (s : State) (a : Reg) (d : Word) : (s.finish a d).V = s.V := rfl
@[simp] theorem State.finish_I (s : State) (a : Reg) (d : Word) : (s.finish a d).I = s.I := rfl
@[simp] theorem State.finish_builder (s : State) (a : Reg) (d : Word) : (s.finish a d).builder = s.builder := rfl
@[simp] theorem State.finish_returned (s : State) (a : Reg) (d : Word) : (s.finish a d).returned = s.returned := rfl
@[simp] theorem State.finish_mem (s : State) (a : Reg) (d : Word) : (s.finish a d).mem = s.mem := rfl
@[simp] theorem State.finish_fetchMap (s : State) (a : Reg) (d : Word) : (s.finish a d).fetchMap = s.fetchMap := rfl
@[simp] theorem State.finish_breakpoints (s : State) (a : Reg) (d : Word) : (s.finish a d).breakpoints = s.breakpoints := rfl
@[simp] theorem State.finish_maxInsns (s : State) (a : Reg) (d : Word) : (s.finish a d).maxInsns = s.maxInsns := rfl
@[simp] theorem State.finish_cfg (s : State) (a : Reg) (d : Word) : (s.finish a d).cfg = s.cfg := rfl
@[simp] theorem State.finish_reg (s : State) (a : Reg) (d : Word) (r : Reg) :
    (s.finish a d).reg r = if r = a then d else s.reg r := by
  rw [← State.setReg_reg]; rfl

@[simp] theorem State.writeLink_x (s : State) : s.writeLink.x = s.x.set linkReg.val s.next linkReg.isLt := rfl
@[simp] theorem State.writeLink_H (s : State) : s.writeLink.H = s.H := rfl
@[simp] theorem State.writeLink_pc (s : State) : s.writeLink.pc = s.pc := rfl
@[simp] theorem State.writeLink_N (s : State) : s.writeLink.N = negativeFlag s.next := rfl
@[simp] theorem State.writeLink_Z (s : State) : s.writeLink.Z = zeroFlag s.next := rfl
@[simp] theorem State.writeLink_C (s : State) : s.writeLink.C = s.C := rfl
@[simp] theorem State.writeLink_V (s : State) : s.writeLink.V = s.V := rfl
@[simp] theorem State.writeLink_I (s : State) : s.writeLink.I = s.I := rfl
@[simp] theorem State.writeLink_builder (s : State) : s.writeLink.builder = s.builder := rfl
@[simp] theorem State.writeLink_returned (s : State) : s.writeLink.returned = s.returned := rfl
@[simp] theorem State.writeLink_mem (s : State) : s.writeLink.mem = s.mem := rfl
@[simp] theorem State.writeLink_fetchMap (s : State) : s.writeLink.fetchMap = s.fetchMap := rfl
@[simp] theorem State.writeLink_breakpoints (s : State) : s.writeLink.breakpoints = s.breakpoints := rfl
@[simp] theorem State.writeLink_maxInsns (s : State) : s.writeLink.maxInsns = s.maxInsns := rfl
@[simp] theorem State.writeLink_cfg (s : State) : s.writeLink.cfg = s.cfg := rfl
@[simp] theorem State.writeLink_reg (s : State) (r : Reg) :
    s.writeLink.reg r = if r = linkReg then s.next else s.reg r := by
  rw [← State.setReg_reg]; rfl

end Sys2Proof.Machine
end

