-- ==== Sys2Proof/Laws/Ops.lean ====
section
/-! SUPPORT. One lemma per shared operation that says everything the operation can do: what it answers, and when. Later
proofs cite these and unfold no operation. -/

namespace Sys2Proof.Machine

/-! ### Sequencing -/

@[simp] theorem bindResult_next {α β : Type} (a : α) (f : α → Result β) : bindResult (.next a) f = f a := rfl

@[simp] theorem bindResult_fault {α β : Type} (g : Fault) (f : α → Result β) :
    bindResult (.fault g : Result α) f = .fault g := rfl

@[simp] theorem bindResult_refused {α β : Type} (g : Refusal) (f : α → Result β) :
    bindResult (.refused g : Result α) f = .refused g := rfl

/-- A sequence goes on exactly when both parts do. -/
theorem bindResult_eq_next {α β : Type} {r : Result α} {f : α → Result β} {t : β} :
    bindResult r f = .next t ↔ ∃ a, r = .next a ∧ f a = .next t := by
  cases r <;> simp

/-- A sequence faults exactly when its first part does or its second part does. -/
theorem bindResult_eq_fault {α β : Type} {r : Result α} {f : α → Result β} {g : Fault} :
    bindResult r f = .fault g ↔ r = .fault g ∨ ∃ a, r = .next a ∧ f a = .fault g := by
  cases r <;> simp

/-- A sequence is refused exactly when its first part is or its second part is. -/
theorem bindResult_eq_refused {α β : Type} {r : Result α} {f : α → Result β} {g : Refusal} :
    bindResult r f = .refused g ↔ r = .refused g ∨ ∃ a, r = .next a ∧ f a = .refused g := by
  cases r <;> simp

/-! ### Flags -/

theorem zeroFlag_eq (d : Word) : zeroFlag d = decide (d = 0) := by simp [zeroFlag, Bool.beq_eq_decide_eq]

theorem negativeFlag_eq (d : Word) : negativeFlag d = d.msb := by
  simp [negativeFlag, bit, BitVec.msb_eq_getLsbD_last]

theorem addCarry_eq (d bv : Word) : addCarry d bv = decide (d.toNat < bv.toNat) := rfl

theorem subCarry_eq (d bv : Word) : subCarry d bv = decide (bv.toNat < d.toNat) := rfl

theorem addOverflow_eq (d bv cv : Word) : addOverflow d bv cv = ((d.msb ^^ bv.msb) && (d.msb ^^ cv.msb)) := by
  simp [addOverflow, bit, BitVec.msb_eq_getLsbD_last]

theorem subOverflow_eq (d bv cv : Word) : subOverflow d bv cv = ((d.msb ^^ bv.msb) && (bv.msb ^^ cv.msb)) := by
  simp [subOverflow, bit, BitVec.msb_eq_getLsbD_last]

/-! ### The register class -/

theorem sameRegsBut_finish (s : State) (a : Reg) (d : Word) : SameRegsBut a s (s.finish a d) := by
  intro r h; simp [h]

/-- The end of a register-class instruction has the common effect (40_regop_move_shift_logic.md R110, R113). -/
theorem writesDest_finish (s : State) (a : Reg) (d : Word) : WritesDest a d s (s.finish a d) :=
  ⟨by simp, by simp [zeroFlag_eq], by simp [negativeFlag_eq], rfl, sameRegsBut_finish s a d, fun _ => rfl,
    rfl, rfl, rfl, rfl, rfl, rfl, rfl⟩

theorem keepsHCV_finish (s : State) (a : Reg) (d : Word) : KeepsHCV s (s.finish a d) := ⟨rfl, rfl, rfl⟩

/-- The flag write of ADD to SBC on top of it leaves the common effect alone. -/
theorem writesDest_finish_setCV (s : State) (a : Reg) (d : Word) (c v : Bool) :
    WritesDest a d s ((s.finish a d).setCV c v) := by
  simpa [WritesDest, SameRegsBut, SameMemory, SameSurround] using writesDest_finish s a d

/-- The write of `H` on top of it leaves the common effect alone. -/
theorem writesDest_finish_setH (s : State) (a : Reg) (d h : Word) : WritesDest a d s ((s.finish a d).setH h) := by
  simpa [WritesDest, SameRegsBut, SameMemory, SameSurround] using writesDest_finish s a d

/-- Everything a move can do. -/
theorem moveOp_eq_next {a : Reg} {d : Word} {s t : State} : moveOp a d s = .next t ↔ t = s.finish a d := by
  simp [moveOp, eq_comm]

/-- Everything a shift, rotate or logic operation can do. -/
theorem aluOp_eq_next {f : Word → Word → Word} {a b : Reg} {cv : Word} {s t : State} :
    aluOp f a b cv s = .next t ↔ t = s.finish a (f (s.reg b) cv) := by
  simp [aluOp, eq_comm]

/-- Everything ADD and ADC can do. -/
theorem addOp_eq_next {cin : Bool} {a b : Reg} {cv : Word} {s t : State} :
    addOp cin a b cv s = .next t ↔
      t = (s.finish a (addValue (s.reg b) cv cin)).setCV (addCarry (addValue (s.reg b) cv cin) (s.reg b))
        (addOverflow (addValue (s.reg b) cv cin) (s.reg b) cv) := by
  simp [addOp, eq_comm]

/-- Everything SUB and SBC can do. -/
theorem subOp_eq_next {cin : Bool} {a b : Reg} {cv : Word} {s t : State} :
    subOp cin a b cv s = .next t ↔
      t = (s.finish a (subValue (s.reg b) cv cin)).setCV (subCarry (subValue (s.reg b) cv cin) (s.reg b))
        (subOverflow (subValue (s.reg b) cv cin) (s.reg b) cv) := by
  simp [subOp, eq_comm]

/-- Everything MUL and UMUL can do. -/
theorem mulOp_eq_next {uns : Bool} {a b : Reg} {cv : Word} {s t : State} :
    mulOp uns a b cv s = .next t ↔
      t = (s.finish a (lowHalf (product uns (s.reg b) cv))).setH (highHalf (product uns (s.reg b) cv)) := by
  simp [mulOp, eq_comm]

/-- DIV and UDIV: the signal if there is one, else the quotient and the remainder. -/
theorem divOp_cases (uns : Bool) (a b : Reg) (cv : Word) (s : State) :
    (∃ g, divideSignal s.cfg.divOverflow uns (s.reg b) cv s.pc = some g ∧ divOp uns a b cv s = .fault g) ∨
    (divideSignal s.cfg.divOverflow uns (s.reg b) cv s.pc = none ∧
      divOp uns a b cv s
        = .next ((s.finish a (quotient uns (s.reg b) cv)).setH (remainder uns (s.reg b) cv))) := by
  unfold divOp raise
  cases h : divideSignal s.cfg.divOverflow uns (s.reg b) cv s.pc <;> simp [h]

/-- The signal of a divide with its tests as propositions. -/
theorem divideSignal_eq (policy : DivOverflow) (uns : Bool) (bv cv a0 : Word) :
    divideSignal policy uns bv cv a0 =
      if cv = 0 then some (.divideByZero a0)
      else if uns = false ∧ policy = .trap ∧ bv = 0x80000000 ∧ cv = 0xFFFFFFFF then some (.divideOverflow a0)
      else none := by
  unfold divideSignal divideOverflows
  split
  · rfl
  · congr 1
    cases uns <;> cases policy <;> simp

/-- When a divide raises nothing (41_regop_arith.md R154, R155). -/
theorem divideSignal_eq_none {policy : DivOverflow} {uns : Bool} {bv cv a0 : Word} :
    divideSignal policy uns bv cv a0 = none ↔
      cv ≠ 0 ∧ ¬(uns = false ∧ policy = .trap ∧ bv = 0x80000000 ∧ cv = 0xFFFFFFFF) := by
  rw [divideSignal_eq]
  split
  · next h => exact ⟨nofun, fun e => absurd h e.1⟩
  · next h => split <;> [exact ⟨nofun, fun e => absurd ‹_› e.2⟩; exact ⟨fun _ => ⟨h, ‹_›⟩, fun _ => rfl⟩]

/-- What a divide raises. -/
theorem divideSignal_eq_some {policy : DivOverflow} {uns : Bool} {bv cv a0 : Word} {g : Fault} :
    divideSignal policy uns bv cv a0 = some g ↔
      (cv = 0 ∧ g = .divideByZero a0) ∨
      (cv ≠ 0 ∧ (uns = false ∧ policy = .trap ∧ bv = 0x80000000 ∧ cv = 0xFFFFFFFF) ∧ g = .divideOverflow a0) := by
  rw [divideSignal_eq]
  split
  · next h => simp [h, eq_comm]
  · next h =>
    split
    · next h' =>
      exact ⟨fun e => .inr ⟨h, h', (Option.some.inj e).symm⟩,
        fun e => e.elim (fun e => absurd e.1 h) (fun e => congrArg some e.2.2.symm)⟩
    · next h' => exact ⟨nofun, fun e => e.elim (fun e => absurd e.1 h) (fun e => absurd e.2.1 h')⟩

/-! ### The memory class -/

/-- A load: the fault if its read gave nothing, else the destination write. -/
theorem loadOp_cases (value : Option Word) (a : Reg) (ea : Word) (s : State) :
    (value = none ∧ loadOp value a ea s = .fault (.memoryFault .load ea s.pc)) ∨
    (∃ d, value = some d ∧ loadOp value a ea s = .next (s.finish a d)) := by
  cases value <;> simp [loadOp, raise]

/-- A word read of data memory: aligned, and the four bytes mapped. -/
theorem memReadWord_eq_some {s : State} {ea d : Word} :
    s.memReadWord ea = some d ↔ aligned ea = true ∧ s.mem.readWord ea = some d := by
  simp [State.memReadWord]

/-- A word read gives nothing exactly where the address is misaligned or a byte is unmapped. -/
theorem memReadWord_eq_none {s : State} {ea : Word} :
    s.memReadWord ea = none ↔ aligned ea = false ∨ s.mem.mappedWord ea = false := by
  rw [← Memory.readWord_isSome]
  cases h : aligned ea <;> simp [State.memReadWord, h]

/-- A byte read of data memory: the byte, zero-extended. -/
theorem memReadByte_eq_some {s : State} {ea d : Word} :
    s.memReadByte ea = some d ↔ ∃ b, s.mem.get ea = some b ∧ b.setWidth 32 = d := by
  simp [State.memReadByte]

/-- A byte read gives nothing exactly where the byte is unmapped. -/
theorem memReadByte_eq_none {s : State} {ea : Word} : s.memReadByte ea = none ↔ s.mem.mapped ea = false := by
  simp [State.memReadByte, Memory.mapped]

/-- Everything a word write can do. -/
theorem memWriteWord_cases (s : State) (ea w : Word) :
    (aligned ea = false ∧ s.memWriteWord ea w = .fault (.memoryFault .store ea s.pc)) ∨
    (aligned ea = true ∧ s.fetchMap.overlapsWord ea = true ∧
      s.memWriteWord ea w = .refused (.storeToFetchMapping ea s.pc)) ∨
    (aligned ea = true ∧ s.fetchMap.overlapsWord ea = false ∧ s.mem.mappedWord ea = false ∧
      s.memWriteWord ea w = .fault (.memoryFault .store ea s.pc)) ∨
    (aligned ea = true ∧ s.fetchMap.overlapsWord ea = false ∧ s.mem.mappedWord ea = true ∧
      s.memWriteWord ea w = .next (s.mem.writeWord ea w)) := by
  unfold State.memWriteWord
  cases aligned ea <;> cases s.fetchMap.overlapsWord ea <;> cases s.mem.mappedWord ea <;> simp

/-- Everything a byte write can do. -/
theorem memWriteByte_cases (s : State) (ea : Word) (b : Byte) :
    (s.fetchMap.mapped ea = true ∧ s.memWriteByte ea b = .refused (.storeToFetchMapping ea s.pc)) ∨
    (s.fetchMap.mapped ea = false ∧ s.mem.mapped ea = false ∧
      s.memWriteByte ea b = .fault (.memoryFault .store ea s.pc)) ∨
    (s.fetchMap.mapped ea = false ∧ s.mem.mapped ea = true ∧ s.memWriteByte ea b = .next (s.mem.set ea b)) := by
  unfold State.memWriteByte
  cases s.fetchMap.mapped ea <;> cases s.mem.mapped ea <;> simp

/-- Everything a store can do after its write. -/
theorem storeOp_eq_next {written : Result Memory} {s t : State} :
    storeOp written s = .next t ↔ ∃ m, written = .next m ∧ t = (s.setMem m).setPc s.next := by
  simp only [storeOp, bindResult_eq_next, Host.Outcome.next.injEq, eq_comm (b := t)]

/-! ### The branch class -/

/-- Everything a branch can do: it always completes. -/
theorem branchOp_eq (link : Bool) (cc : Cond) (target : Word) (s : State) :
    branchOp link cc target s = .next
      ((if link && (s.taken cc || s.cfg.linkWriteWhenNotTaken) then s.writeLink else s).setPc
        (if s.taken cc then target else s.next)) := rfl

/-- A branch has the effect the spec gives it, whatever its condition. -/
theorem branchOp_effect (link : Bool) (cc : Cond) (target : Word) (s : State) :
    ∃ t, branchOp link cc target s = .next t ∧ BranchEffect link (s.taken cc = true) target s t := by
  refine ⟨_, branchOp_eq link cc target s, ?_⟩
  cases h : s.taken cc <;> cases hl : link <;> cases hp : s.cfg.linkWriteWhenNotTaken <;>
    simp +contextual [BranchEffect, KeepsHCV, SameRegs, SameRegsBut, SameMemory, SameSurround, zeroFlag_eq,
      negativeFlag_eq, linkReg, State.next, hp]

/-! ### Fetch, the Builder and the step -/

/-- A fetch succeeds exactly on an aligned, wholly mapped word. -/
theorem fetch_eq_some {s : State} {a w : Word} :
    s.fetch a = some w ↔ aligned a = true ∧ s.fetchMap.readWord a = some w := by
  simp [State.fetch]

/-- A fetch fails exactly where the address is misaligned or a byte of the word is unmapped. -/
theorem fetch_eq_none {s : State} {a : Word} :
    s.fetch a = none ↔ aligned a = false ∨ s.fetchMap.mappedWord a = false := by
  rw [← Memory.readWord_isSome]
  cases h : aligned a <;> simp [State.fetch, h]

@[simp] theorem setBuilder_fetch (s : State) (b : Builder) (a : Word) : (s.setBuilder b).fetch a = s.fetch a := rfl

@[simp] theorem setBuilder_breakpointAt (s : State) (b : Builder) (a : Word) :
    (s.setBuilder b).breakpointAt a = s.breakpointAt a := rfl

@[simp] theorem setBuilder_setBuilder (s : State) (b b' : Builder) : (s.setBuilder b).setBuilder b' = s.setBuilder b' :=
  rfl

@[simp] theorem setBuilder_self (s : State) : s.setBuilder s.builder = s := rfl

@[simp] theorem setReturned_fetch (s : State) (u : Option ClosedUnit) (a : Word) :
    (s.setReturned u).fetch a = s.fetch a := rfl

@[simp] theorem setReturned_breakpointAt (s : State) (u : Option ClosedUnit) (a : Word) :
    (s.setReturned u).breakpointAt a = s.breakpointAt a := rfl

@[simp] theorem returnUnit_x (s : State) : s.returnUnit.x = s.x := by
  unfold State.returnUnit; split <;> rfl
@[simp] theorem returnUnit_H (s : State) : s.returnUnit.H = s.H := by
  unfold State.returnUnit; split <;> rfl
@[simp] theorem returnUnit_pc (s : State) : s.returnUnit.pc = s.pc := by
  unfold State.returnUnit; split <;> rfl
@[simp] theorem returnUnit_N (s : State) : s.returnUnit.N = s.N := by
  unfold State.returnUnit; split <;> rfl
@[simp] theorem returnUnit_Z (s : State) : s.returnUnit.Z = s.Z := by
  unfold State.returnUnit; split <;> rfl
@[simp] theorem returnUnit_C (s : State) : s.returnUnit.C = s.C := by
  unfold State.returnUnit; split <;> rfl
@[simp] theorem returnUnit_V (s : State) : s.returnUnit.V = s.V := by
  unfold State.returnUnit; split <;> rfl
@[simp] theorem returnUnit_I (s : State) : s.returnUnit.I = s.I := by
  unfold State.returnUnit; split <;> rfl
@[simp] theorem returnUnit_mem (s : State) : s.returnUnit.mem = s.mem := by
  unfold State.returnUnit; split <;> rfl
@[simp] theorem returnUnit_fetchMap (s : State) : s.returnUnit.fetchMap = s.fetchMap := by
  unfold State.returnUnit; split <;> rfl
@[simp] theorem returnUnit_breakpoints (s : State) : s.returnUnit.breakpoints = s.breakpoints := by
  unfold State.returnUnit; split <;> rfl
@[simp] theorem returnUnit_maxInsns (s : State) : s.returnUnit.maxInsns = s.maxInsns := by
  unfold State.returnUnit; split <;> rfl
@[simp] theorem returnUnit_cfg (s : State) : s.returnUnit.cfg = s.cfg := by
  unfold State.returnUnit; split <;> rfl

@[simp] theorem returnUnit_reg (s : State) (r : Reg) : s.returnUnit.reg r = s.reg r := by
  simp only [State.reg, returnUnit_x]

@[simp] theorem returnUnit_fetch (s : State) (a : Word) : s.returnUnit.fetch a = s.fetch a := by
  simp only [State.fetch, returnUnit_fetchMap]

@[simp] theorem returnUnit_breakpointAt (s : State) (a : Word) : s.returnUnit.breakpointAt a = s.breakpointAt a := by
  simp only [State.breakpointAt, returnUnit_breakpoints]

/-- What the return does: a closed unit is handed over and the Builder is Idle; otherwise the Builder stays and nothing is
handed over (44_unit_builder.md R222). -/
theorem returnUnit_cases (s : State) :
    (∃ reason, s.builder.phase = .closed reason ∧ s.returnUnit.builder = Builder.idle
      ∧ s.returnUnit.returned = s.builder.output) ∨
    ((∀ reason, s.builder.phase ≠ .closed reason) ∧ s.returnUnit.builder = s.builder ∧ s.returnUnit.returned = none) := by
  unfold State.returnUnit
  cases h : s.builder.phase <;> simp

/-- A return overwrites the output, whatever it was. -/
@[simp] theorem setReturned_returnUnit (s : State) (u : Option ClosedUnit) :
    (s.setReturned u).returnUnit = s.returnUnit := by
  unfold State.returnUnit; simp only [State.setReturned_builder]; split <;> rfl

/-- No return leaves the Builder Closed (44_unit_builder.md R222). -/
theorem returnUnit_phase (s : State) (reason : CloseReason) : s.returnUnit.builder.phase ≠ .closed reason := by
  rcases returnUnit_cases s with ⟨_, _, h, _⟩ | ⟨hn, h, _⟩ <;> rw [h]
  · simp [Builder.idle]
  · exact hn reason

/-- Opening a unit keeps the one in progress, and otherwise is an invocation at `pc` (44_unit_builder.md R222). -/
theorem openUnit_cases (s : State) :
    (s.builder.phase = .opened ∧ s.openUnit = s) ∨
    (s.builder.phase ≠ .opened ∧
      ∃ u, s.openUnit = (s.setBuilder (Builder.invoke s.cfg s.pc s.maxInsns)).setReturned u) := by
  unfold State.openUnit State.returnUnit
  cases h : s.builder.phase with
  | idle => exact .inr ⟨nofun, s.returned, rfl⟩
  | opened => exact .inl ⟨rfl, rfl⟩
  | closed reason => exact .inr ⟨nofun, s.builder.output, rfl⟩

/-- Opening a unit changes the Builder and its output at most. -/
theorem openUnit_eq (s : State) : ∃ u, s.openUnit = (s.setBuilder s.openUnit.builder).setReturned u := by
  rcases openUnit_cases s with ⟨_, h⟩ | ⟨_, u, h⟩
  · exact ⟨s.returned, by rw [h]; rfl⟩
  · exact ⟨u, by rw [h]; rfl⟩

/-- The unit a step works in is open, whatever the state before. -/
theorem openUnit_phase (s : State) : s.openUnit.builder.phase = .opened := by
  rcases openUnit_cases s with ⟨h, e⟩ | ⟨_, _, e⟩ <;> rw [e]
  · exact h
  · rfl

/-- What counting one translated word does (44_unit_builder.md R225, R228, R229). -/
theorem count_cases (b : Builder) (w : Word) :
    (isBranchWord w = true ∧
      b.count w = { b with n := b.n + 1, phase := .closed .branchExit, exit := some (branchExit w b.cur) }) ∨
    (isBranchWord w = false ∧ b.max ≤ b.n + 1 ∧
      b.count w = { b with n := b.n + 1, cur := b.cur + 4#32, phase := .closed .fallthroughCap,
                           exit := some (.fallthrough (b.cur + 4#32)) }) ∨
    (isBranchWord w = false ∧ b.n + 1 < b.max ∧ b.count w = { b with n := b.n + 1, cur := b.cur + 4#32 }) := by
  unfold Builder.count
  cases h : isBranchWord w
  · by_cases h' : b.max ≤ b.n + 1
    · simp [h']
    · simp [h', Nat.lt_of_not_le h']
  · simp

/-- Running a word goes on exactly when its instruction does. -/
theorem runWord_eq_next {w : Word} {s t : State} :
    runWord w s = .next t ↔
      ∃ u, exec (decodeWord w) s = .next u ∧ t = (u.setBuilder (s.builder.count w)).returnUnit := by
  simp only [runWord, bindResult_eq_next, Host.Outcome.next.injEq, eq_comm (b := t)]

/-- Everything a step that goes on can have done (44_unit_builder.md R222, R225). -/
theorem step_eq_next {s t : State} (h : step s = .next t) :
    (s.breakpointAt s.pc = true ∧ t = (s.setBuilder s.openUnit.builder.closeBreakpoint).returnUnit) ∨
    (s.breakpointAt s.pc = false ∧ ∃ w u, s.fetch s.pc = some w ∧ exec (decodeWord w) s.openUnit = .next u ∧
      t = (u.setBuilder (s.openUnit.builder.count w)).returnUnit) := by
  obtain ⟨r, ho⟩ := openUnit_eq s
  have hb : s.openUnit.breakpointAt s.openUnit.pc = s.breakpointAt s.pc := by rw [ho]; rfl
  have hf : s.openUnit.fetch s.openUnit.pc = s.fetch s.pc := by rw [ho]; rfl
  simp only [step, hb, hf] at h
  split at h
  · next hbp =>
    refine .inl ⟨hbp, ?_⟩
    rw [← setReturned_returnUnit _ r]
    cases h; rw [ho]; rfl
  · next hbp =>
    refine .inr ⟨by simpa using hbp, ?_⟩
    split at h
    · cases h
    · next w hw =>
      obtain ⟨u, hu, ht⟩ := runWord_eq_next.mp h
      exact ⟨w, u, hw, hu, ht⟩

end Sys2Proof.Machine
end

