-- ==== Sys2Proof/Laws/Exec.lean ====
section
/-! SUPPORT. Everything exec can do, instruction by instruction, as one disjunction over the shared operations: a proof
about every instruction cites this and the lemmas of Laws/Ops.lean, and unfolds no meaning. -/

namespace Sys2Proof.Machine

/-- Every instruction is one of the shared operations, on operands of its own. -/
theorem exec_cases (i : Instr) (s : State) :
    (∃ a d, exec i s = moveOp a d s) ∨ (∃ f a b cv, exec i s = aluOp f a b cv s)
    ∨ (∃ cin a b cv, exec i s = addOp cin a b cv s) ∨ (∃ cin a b cv, exec i s = subOp cin a b cv s)
    ∨ (∃ uns a b cv, exec i s = mulOp uns a b cv s) ∨ (∃ uns a b cv, exec i s = divOp uns a b cv s)
    ∨ exec i s = floatOp s ∨ (∃ value a ea, exec i s = loadOp value a ea s)
    ∨ (∃ ea w, exec i s = storeOp (s.memWriteWord ea w) s) ∨ (∃ ea b, exec i s = storeOp (s.memWriteByte ea b) s)
    ∨ (∃ link cc target, exec i s = branchOp link cc target s) := by
  cases i with
  | movReg _ _ => exact .inl ⟨_, _, rfl⟩
  | movH _ => exact .inl ⟨_, _, rfl⟩
  | movFlags _ => exact .inl ⟨_, _, rfl⟩
  | movImm _ _ _ => exact .inl ⟨_, _, rfl⟩
  | movhi _ _ => exact .inl ⟨_, _, rfl⟩
  | lslReg _ _ _ => exact .inr (.inl ⟨_, _, _, _, rfl⟩)
  | lslImm _ _ _ _ => exact .inr (.inl ⟨_, _, _, _, rfl⟩)
  | asrReg _ _ _ => exact .inr (.inl ⟨_, _, _, _, rfl⟩)
  | asrImm _ _ _ _ => exact .inr (.inl ⟨_, _, _, _, rfl⟩)
  | rorReg _ _ _ => exact .inr (.inl ⟨_, _, _, _, rfl⟩)
  | rorImm _ _ _ _ => exact .inr (.inl ⟨_, _, _, _, rfl⟩)
  | andReg _ _ _ => exact .inr (.inl ⟨_, _, _, _, rfl⟩)
  | andImm _ _ _ _ => exact .inr (.inl ⟨_, _, _, _, rfl⟩)
  | annReg _ _ _ => exact .inr (.inl ⟨_, _, _, _, rfl⟩)
  | annImm _ _ _ _ => exact .inr (.inl ⟨_, _, _, _, rfl⟩)
  | iorReg _ _ _ => exact .inr (.inl ⟨_, _, _, _, rfl⟩)
  | iorImm _ _ _ _ => exact .inr (.inl ⟨_, _, _, _, rfl⟩)
  | xorReg _ _ _ => exact .inr (.inl ⟨_, _, _, _, rfl⟩)
  | xorImm _ _ _ _ => exact .inr (.inl ⟨_, _, _, _, rfl⟩)
  | addReg _ _ _ => exact .inr (.inr (.inl ⟨_, _, _, _, rfl⟩))
  | adcReg _ _ _ => exact .inr (.inr (.inl ⟨_, _, _, _, rfl⟩))
  | addImm _ _ _ _ => exact .inr (.inr (.inl ⟨_, _, _, _, rfl⟩))
  | adcImm _ _ _ _ => exact .inr (.inr (.inl ⟨_, _, _, _, rfl⟩))
  | subReg _ _ _ => exact .inr (.inr (.inr (.inl ⟨_, _, _, _, rfl⟩)))
  | sbcReg _ _ _ => exact .inr (.inr (.inr (.inl ⟨_, _, _, _, rfl⟩)))
  | subImm _ _ _ _ => exact .inr (.inr (.inr (.inl ⟨_, _, _, _, rfl⟩)))
  | sbcImm _ _ _ _ => exact .inr (.inr (.inr (.inl ⟨_, _, _, _, rfl⟩)))
  | mulReg _ _ _ => exact .inr (.inr (.inr (.inr (.inl ⟨_, _, _, _, rfl⟩))))
  | umulReg _ _ _ => exact .inr (.inr (.inr (.inr (.inl ⟨_, _, _, _, rfl⟩))))
  | mulImm _ _ _ _ => exact .inr (.inr (.inr (.inr (.inl ⟨_, _, _, _, rfl⟩))))
  | umulImm _ _ _ _ => exact .inr (.inr (.inr (.inr (.inl ⟨_, _, _, _, rfl⟩))))
  | divReg _ _ _ => exact .inr (.inr (.inr (.inr (.inr (.inl ⟨_, _, _, _, rfl⟩)))))
  | udivReg _ _ _ => exact .inr (.inr (.inr (.inr (.inr (.inl ⟨_, _, _, _, rfl⟩)))))
  | divImm _ _ _ _ => exact .inr (.inr (.inr (.inr (.inr (.inl ⟨_, _, _, _, rfl⟩)))))
  | udivImm _ _ _ _ => exact .inr (.inr (.inr (.inr (.inr (.inl ⟨_, _, _, _, rfl⟩)))))
  | fadReg => exact .inr (.inr (.inr (.inr (.inr (.inr (.inl rfl))))))
  | fadImm => exact .inr (.inr (.inr (.inr (.inr (.inr (.inl rfl))))))
  | fsbReg => exact .inr (.inr (.inr (.inr (.inr (.inr (.inl rfl))))))
  | fsbImm => exact .inr (.inr (.inr (.inr (.inr (.inr (.inl rfl))))))
  | fmlReg => exact .inr (.inr (.inr (.inr (.inr (.inr (.inl rfl))))))
  | fmlImm => exact .inr (.inr (.inr (.inr (.inr (.inr (.inl rfl))))))
  | fdvReg => exact .inr (.inr (.inr (.inr (.inr (.inr (.inl rfl))))))
  | fdvImm => exact .inr (.inr (.inr (.inr (.inr (.inr (.inl rfl))))))
  | ldw _ _ _ => exact .inr (.inr (.inr (.inr (.inr (.inr (.inr (.inl ⟨_, _, _, rfl⟩)))))))
  | ldb _ _ _ => exact .inr (.inr (.inr (.inr (.inr (.inr (.inr (.inl ⟨_, _, _, rfl⟩)))))))
  | stw _ _ _ => exact .inr (.inr (.inr (.inr (.inr (.inr (.inr (.inr (.inl ⟨_, _, rfl⟩))))))))
  | stb _ _ _ => exact .inr (.inr (.inr (.inr (.inr (.inr (.inr (.inr (.inr (.inl ⟨_, _, rfl⟩)))))))))
  | bmiInd _ => exact .inr (.inr (.inr (.inr (.inr (.inr (.inr (.inr (.inr (.inr (⟨_, _, _, rfl⟩))))))))))
  | beqInd _ => exact .inr (.inr (.inr (.inr (.inr (.inr (.inr (.inr (.inr (.inr (⟨_, _, _, rfl⟩))))))))))
  | bcsInd _ => exact .inr (.inr (.inr (.inr (.inr (.inr (.inr (.inr (.inr (.inr (⟨_, _, _, rfl⟩))))))))))
  | bvsInd _ => exact .inr (.inr (.inr (.inr (.inr (.inr (.inr (.inr (.inr (.inr (⟨_, _, _, rfl⟩))))))))))
  | blsInd _ => exact .inr (.inr (.inr (.inr (.inr (.inr (.inr (.inr (.inr (.inr (⟨_, _, _, rfl⟩))))))))))
  | bltInd _ => exact .inr (.inr (.inr (.inr (.inr (.inr (.inr (.inr (.inr (.inr (⟨_, _, _, rfl⟩))))))))))
  | bleInd _ => exact .inr (.inr (.inr (.inr (.inr (.inr (.inr (.inr (.inr (.inr (⟨_, _, _, rfl⟩))))))))))
  | bInd _ => exact .inr (.inr (.inr (.inr (.inr (.inr (.inr (.inr (.inr (.inr (⟨_, _, _, rfl⟩))))))))))
  | bplInd _ => exact .inr (.inr (.inr (.inr (.inr (.inr (.inr (.inr (.inr (.inr (⟨_, _, _, rfl⟩))))))))))
  | bneInd _ => exact .inr (.inr (.inr (.inr (.inr (.inr (.inr (.inr (.inr (.inr (⟨_, _, _, rfl⟩))))))))))
  | bccInd _ => exact .inr (.inr (.inr (.inr (.inr (.inr (.inr (.inr (.inr (.inr (⟨_, _, _, rfl⟩))))))))))
  | bvcInd _ => exact .inr (.inr (.inr (.inr (.inr (.inr (.inr (.inr (.inr (.inr (⟨_, _, _, rfl⟩))))))))))
  | bhiInd _ => exact .inr (.inr (.inr (.inr (.inr (.inr (.inr (.inr (.inr (.inr (⟨_, _, _, rfl⟩))))))))))
  | bgeInd _ => exact .inr (.inr (.inr (.inr (.inr (.inr (.inr (.inr (.inr (.inr (⟨_, _, _, rfl⟩))))))))))
  | bgtInd _ => exact .inr (.inr (.inr (.inr (.inr (.inr (.inr (.inr (.inr (.inr (⟨_, _, _, rfl⟩))))))))))
  | bnvInd _ => exact .inr (.inr (.inr (.inr (.inr (.inr (.inr (.inr (.inr (.inr (⟨_, _, _, rfl⟩))))))))))
  | blmiInd _ => exact .inr (.inr (.inr (.inr (.inr (.inr (.inr (.inr (.inr (.inr (⟨_, _, _, rfl⟩))))))))))
  | bleqInd _ => exact .inr (.inr (.inr (.inr (.inr (.inr (.inr (.inr (.inr (.inr (⟨_, _, _, rfl⟩))))))))))
  | blcsInd _ => exact .inr (.inr (.inr (.inr (.inr (.inr (.inr (.inr (.inr (.inr (⟨_, _, _, rfl⟩))))))))))
  | blvsInd _ => exact .inr (.inr (.inr (.inr (.inr (.inr (.inr (.inr (.inr (.inr (⟨_, _, _, rfl⟩))))))))))
  | bllsInd _ => exact .inr (.inr (.inr (.inr (.inr (.inr (.inr (.inr (.inr (.inr (⟨_, _, _, rfl⟩))))))))))
  | blltInd _ => exact .inr (.inr (.inr (.inr (.inr (.inr (.inr (.inr (.inr (.inr (⟨_, _, _, rfl⟩))))))))))
  | blleInd _ => exact .inr (.inr (.inr (.inr (.inr (.inr (.inr (.inr (.inr (.inr (⟨_, _, _, rfl⟩))))))))))
  | blInd _ => exact .inr (.inr (.inr (.inr (.inr (.inr (.inr (.inr (.inr (.inr (⟨_, _, _, rfl⟩))))))))))
  | blplInd _ => exact .inr (.inr (.inr (.inr (.inr (.inr (.inr (.inr (.inr (.inr (⟨_, _, _, rfl⟩))))))))))
  | blneInd _ => exact .inr (.inr (.inr (.inr (.inr (.inr (.inr (.inr (.inr (.inr (⟨_, _, _, rfl⟩))))))))))
  | blccInd _ => exact .inr (.inr (.inr (.inr (.inr (.inr (.inr (.inr (.inr (.inr (⟨_, _, _, rfl⟩))))))))))
  | blvcInd _ => exact .inr (.inr (.inr (.inr (.inr (.inr (.inr (.inr (.inr (.inr (⟨_, _, _, rfl⟩))))))))))
  | blhiInd _ => exact .inr (.inr (.inr (.inr (.inr (.inr (.inr (.inr (.inr (.inr (⟨_, _, _, rfl⟩))))))))))
  | blgeInd _ => exact .inr (.inr (.inr (.inr (.inr (.inr (.inr (.inr (.inr (.inr (⟨_, _, _, rfl⟩))))))))))
  | blgtInd _ => exact .inr (.inr (.inr (.inr (.inr (.inr (.inr (.inr (.inr (.inr (⟨_, _, _, rfl⟩))))))))))
  | blnvInd _ => exact .inr (.inr (.inr (.inr (.inr (.inr (.inr (.inr (.inr (.inr (⟨_, _, _, rfl⟩))))))))))
  | bmiRel _ => exact .inr (.inr (.inr (.inr (.inr (.inr (.inr (.inr (.inr (.inr (⟨_, _, _, rfl⟩))))))))))
  | beqRel _ => exact .inr (.inr (.inr (.inr (.inr (.inr (.inr (.inr (.inr (.inr (⟨_, _, _, rfl⟩))))))))))
  | bcsRel _ => exact .inr (.inr (.inr (.inr (.inr (.inr (.inr (.inr (.inr (.inr (⟨_, _, _, rfl⟩))))))))))
  | bvsRel _ => exact .inr (.inr (.inr (.inr (.inr (.inr (.inr (.inr (.inr (.inr (⟨_, _, _, rfl⟩))))))))))
  | blsRel _ => exact .inr (.inr (.inr (.inr (.inr (.inr (.inr (.inr (.inr (.inr (⟨_, _, _, rfl⟩))))))))))
  | bltRel _ => exact .inr (.inr (.inr (.inr (.inr (.inr (.inr (.inr (.inr (.inr (⟨_, _, _, rfl⟩))))))))))
  | bleRel _ => exact .inr (.inr (.inr (.inr (.inr (.inr (.inr (.inr (.inr (.inr (⟨_, _, _, rfl⟩))))))))))
  | bRel _ => exact .inr (.inr (.inr (.inr (.inr (.inr (.inr (.inr (.inr (.inr (⟨_, _, _, rfl⟩))))))))))
  | bplRel _ => exact .inr (.inr (.inr (.inr (.inr (.inr (.inr (.inr (.inr (.inr (⟨_, _, _, rfl⟩))))))))))
  | bneRel _ => exact .inr (.inr (.inr (.inr (.inr (.inr (.inr (.inr (.inr (.inr (⟨_, _, _, rfl⟩))))))))))
  | bccRel _ => exact .inr (.inr (.inr (.inr (.inr (.inr (.inr (.inr (.inr (.inr (⟨_, _, _, rfl⟩))))))))))
  | bvcRel _ => exact .inr (.inr (.inr (.inr (.inr (.inr (.inr (.inr (.inr (.inr (⟨_, _, _, rfl⟩))))))))))
  | bhiRel _ => exact .inr (.inr (.inr (.inr (.inr (.inr (.inr (.inr (.inr (.inr (⟨_, _, _, rfl⟩))))))))))
  | bgeRel _ => exact .inr (.inr (.inr (.inr (.inr (.inr (.inr (.inr (.inr (.inr (⟨_, _, _, rfl⟩))))))))))
  | bgtRel _ => exact .inr (.inr (.inr (.inr (.inr (.inr (.inr (.inr (.inr (.inr (⟨_, _, _, rfl⟩))))))))))
  | bnvRel _ => exact .inr (.inr (.inr (.inr (.inr (.inr (.inr (.inr (.inr (.inr (⟨_, _, _, rfl⟩))))))))))
  | blmiRel _ => exact .inr (.inr (.inr (.inr (.inr (.inr (.inr (.inr (.inr (.inr (⟨_, _, _, rfl⟩))))))))))
  | bleqRel _ => exact .inr (.inr (.inr (.inr (.inr (.inr (.inr (.inr (.inr (.inr (⟨_, _, _, rfl⟩))))))))))
  | blcsRel _ => exact .inr (.inr (.inr (.inr (.inr (.inr (.inr (.inr (.inr (.inr (⟨_, _, _, rfl⟩))))))))))
  | blvsRel _ => exact .inr (.inr (.inr (.inr (.inr (.inr (.inr (.inr (.inr (.inr (⟨_, _, _, rfl⟩))))))))))
  | bllsRel _ => exact .inr (.inr (.inr (.inr (.inr (.inr (.inr (.inr (.inr (.inr (⟨_, _, _, rfl⟩))))))))))
  | blltRel _ => exact .inr (.inr (.inr (.inr (.inr (.inr (.inr (.inr (.inr (.inr (⟨_, _, _, rfl⟩))))))))))
  | blleRel _ => exact .inr (.inr (.inr (.inr (.inr (.inr (.inr (.inr (.inr (.inr (⟨_, _, _, rfl⟩))))))))))
  | blRel _ => exact .inr (.inr (.inr (.inr (.inr (.inr (.inr (.inr (.inr (.inr (⟨_, _, _, rfl⟩))))))))))
  | blplRel _ => exact .inr (.inr (.inr (.inr (.inr (.inr (.inr (.inr (.inr (.inr (⟨_, _, _, rfl⟩))))))))))
  | blneRel _ => exact .inr (.inr (.inr (.inr (.inr (.inr (.inr (.inr (.inr (.inr (⟨_, _, _, rfl⟩))))))))))
  | blccRel _ => exact .inr (.inr (.inr (.inr (.inr (.inr (.inr (.inr (.inr (.inr (⟨_, _, _, rfl⟩))))))))))
  | blvcRel _ => exact .inr (.inr (.inr (.inr (.inr (.inr (.inr (.inr (.inr (.inr (⟨_, _, _, rfl⟩))))))))))
  | blhiRel _ => exact .inr (.inr (.inr (.inr (.inr (.inr (.inr (.inr (.inr (.inr (⟨_, _, _, rfl⟩))))))))))
  | blgeRel _ => exact .inr (.inr (.inr (.inr (.inr (.inr (.inr (.inr (.inr (.inr (⟨_, _, _, rfl⟩))))))))))
  | blgtRel _ => exact .inr (.inr (.inr (.inr (.inr (.inr (.inr (.inr (.inr (.inr (⟨_, _, _, rfl⟩))))))))))
  | blnvRel _ => exact .inr (.inr (.inr (.inr (.inr (.inr (.inr (.inr (.inr (.inr (⟨_, _, _, rfl⟩))))))))))

end Sys2Proof.Machine
end

