-- ==== Sys2Proof/Laws/PerInstr.lean ====
section
/-! SUPPORT. A family of lemmas, one per constructor: the word of an instruction matches the row of the opcode map that
30_encoding.md R102 prints for it. -/

namespace Sys2Proof.Laws.EncodesItsRow

/-- The word of `i` matches its row (30_encoding.md R102). -/
def Statement (i : Instr) : Prop := encodeWord i &&& i.row.mask = i.row.pattern

/-! ### The bits a row tests, format by format -/

theorem mask_regWord (u v : Bool) (op : AluSel) (a b c : Reg) :
    regWord u v op a b c &&& 0xF00F0000
      = put (BitVec.ofBool u) 29 ||| put (BitVec.ofBool v) 28 ||| put (aluSelBits op) 16 := by
  ext i hi; simp [regWord, put]; interval_cases i <;> simp

theorem mask_immWord (u v : Bool) (op : AluSel) (a b : Reg) (imm : BitVec 16) :
    immWord u v op a b imm &&& 0xF00F0000
      = put 1#1 30 ||| put (BitVec.ofBool u) 29 ||| put (BitVec.ofBool v) 28 ||| put (aluSelBits op) 16 := by
  ext i hi; simp [immWord, put]; interval_cases i <;> simp

theorem mask_memWord (u v : Bool) (a b : Reg) (off : BitVec 20) :
    memWord u v a b off &&& 0xF0000000 = put 1#1 31 ||| put (BitVec.ofBool u) 29 ||| put (BitVec.ofBool v) 28 := by
  ext i hi; simp [memWord, put]; interval_cases i <;> simp

theorem mask_brrWord (link : Bool) (cc : Cond) (c : Reg) :
    brrWord link cc c &&& 0xFF000000
      = put 1#1 31 ||| put 1#1 30 ||| put (BitVec.ofBool link) 28 ||| put (BitVec.ofBool cc.inv) 27
        ||| put (condSelBits cc.sel) 24 := by
  ext i hi; simp [brrWord, put]; interval_cases i <;> simp

theorem mask_briWord (link : Bool) (cc : Cond) (off : BitVec 24) :
    briWord link cc off &&& 0xFF000000
      = put 1#1 31 ||| put 1#1 30 ||| put 1#1 29 ||| put (BitVec.ofBool link) 28 ||| put (BitVec.ofBool cc.inv) 27
        ||| put (condSelBits cc.sel) 24 := by
  ext i hi; simp [briWord, put]; interval_cases i <;> simp

/-- A narrower mask sees what the wider one leaves of it. -/
theorem narrow {w wide mask x : Word} (h : w &&& wide = x) (hm : wide &&& mask = mask) : w &&& mask = x &&& mask := by
  rw [← h, BitVec.and_assoc, hm]

/-! ### One lemma per constructor -/

theorem movReg (a : Reg) (c : Reg) : Statement (.movReg a c) :=
  (narrow (mask := 0xe00f0000) (mask_regWord _ _ _ _ _ _) (by decide)).trans (c := 0x0) (by decide)
theorem movH (a : Reg) : Statement (.movH a) :=
  (narrow (mask := 0xf00f0000) (mask_regWord _ _ _ _ _ _) (by decide)).trans (c := 0x20000000) (by decide)
theorem movFlags (a : Reg) : Statement (.movFlags a) :=
  (narrow (mask := 0xf00f0000) (mask_regWord _ _ _ _ _ _) (by decide)).trans (c := 0x30000000) (by decide)
theorem movImm (a : Reg) (v : Bool) (imm : BitVec 16) : Statement (.movImm a v imm) :=
  (narrow (mask := 0xe00f0000) (mask_immWord _ _ _ _ _ _) (by decide)).trans (c := 0x40000000) (by cases v <;> decide)
theorem movhi (a : Reg) (imm : BitVec 16) : Statement (.movhi a imm) :=
  (narrow (mask := 0xe00f0000) (mask_immWord _ _ _ _ _ _) (by decide)).trans (c := 0x60000000) (by decide)
theorem lslReg (a : Reg) (b : Reg) (c : Reg) : Statement (.lslReg a b c) :=
  (narrow (mask := 0xc00f0000) (mask_regWord _ _ _ _ _ _) (by decide)).trans (c := 0x10000) (by decide)
theorem lslImm (a : Reg) (b : Reg) (v : Bool) (imm : BitVec 16) : Statement (.lslImm a b v imm) :=
  (narrow (mask := 0xc00f0000) (mask_immWord _ _ _ _ _ _) (by decide)).trans (c := 0x40010000) (by cases v <;> decide)
theorem asrReg (a : Reg) (b : Reg) (c : Reg) : Statement (.asrReg a b c) :=
  (narrow (mask := 0xc00f0000) (mask_regWord _ _ _ _ _ _) (by decide)).trans (c := 0x20000) (by decide)
theorem asrImm (a : Reg) (b : Reg) (v : Bool) (imm : BitVec 16) : Statement (.asrImm a b v imm) :=
  (narrow (mask := 0xc00f0000) (mask_immWord _ _ _ _ _ _) (by decide)).trans (c := 0x40020000) (by cases v <;> decide)
theorem rorReg (a : Reg) (b : Reg) (c : Reg) : Statement (.rorReg a b c) :=
  (narrow (mask := 0xc00f0000) (mask_regWord _ _ _ _ _ _) (by decide)).trans (c := 0x30000) (by decide)
theorem rorImm (a : Reg) (b : Reg) (v : Bool) (imm : BitVec 16) : Statement (.rorImm a b v imm) :=
  (narrow (mask := 0xc00f0000) (mask_immWord _ _ _ _ _ _) (by decide)).trans (c := 0x40030000) (by cases v <;> decide)
theorem andReg (a : Reg) (b : Reg) (c : Reg) : Statement (.andReg a b c) :=
  (narrow (mask := 0xc00f0000) (mask_regWord _ _ _ _ _ _) (by decide)).trans (c := 0x40000) (by decide)
theorem andImm (a : Reg) (b : Reg) (v : Bool) (imm : BitVec 16) : Statement (.andImm a b v imm) :=
  (narrow (mask := 0xc00f0000) (mask_immWord _ _ _ _ _ _) (by decide)).trans (c := 0x40040000) (by cases v <;> decide)
theorem annReg (a : Reg) (b : Reg) (c : Reg) : Statement (.annReg a b c) :=
  (narrow (mask := 0xc00f0000) (mask_regWord _ _ _ _ _ _) (by decide)).trans (c := 0x50000) (by decide)
theorem annImm (a : Reg) (b : Reg) (v : Bool) (imm : BitVec 16) : Statement (.annImm a b v imm) :=
  (narrow (mask := 0xc00f0000) (mask_immWord _ _ _ _ _ _) (by decide)).trans (c := 0x40050000) (by cases v <;> decide)
theorem iorReg (a : Reg) (b : Reg) (c : Reg) : Statement (.iorReg a b c) :=
  (narrow (mask := 0xc00f0000) (mask_regWord _ _ _ _ _ _) (by decide)).trans (c := 0x60000) (by decide)
theorem iorImm (a : Reg) (b : Reg) (v : Bool) (imm : BitVec 16) : Statement (.iorImm a b v imm) :=
  (narrow (mask := 0xc00f0000) (mask_immWord _ _ _ _ _ _) (by decide)).trans (c := 0x40060000) (by cases v <;> decide)
theorem xorReg (a : Reg) (b : Reg) (c : Reg) : Statement (.xorReg a b c) :=
  (narrow (mask := 0xc00f0000) (mask_regWord _ _ _ _ _ _) (by decide)).trans (c := 0x70000) (by decide)
theorem xorImm (a : Reg) (b : Reg) (v : Bool) (imm : BitVec 16) : Statement (.xorImm a b v imm) :=
  (narrow (mask := 0xc00f0000) (mask_immWord _ _ _ _ _ _) (by decide)).trans (c := 0x40070000) (by cases v <;> decide)
theorem addReg (a : Reg) (b : Reg) (c : Reg) : Statement (.addReg a b c) :=
  (narrow (mask := 0xe00f0000) (mask_regWord _ _ _ _ _ _) (by decide)).trans (c := 0x80000) (by decide)
theorem adcReg (a : Reg) (b : Reg) (c : Reg) : Statement (.adcReg a b c) :=
  (narrow (mask := 0xe00f0000) (mask_regWord _ _ _ _ _ _) (by decide)).trans (c := 0x20080000) (by decide)
theorem addImm (a : Reg) (b : Reg) (v : Bool) (imm : BitVec 16) : Statement (.addImm a b v imm) :=
  (narrow (mask := 0xe00f0000) (mask_immWord _ _ _ _ _ _) (by decide)).trans (c := 0x40080000) (by cases v <;> decide)
theorem adcImm (a : Reg) (b : Reg) (v : Bool) (imm : BitVec 16) : Statement (.adcImm a b v imm) :=
  (narrow (mask := 0xe00f0000) (mask_immWord _ _ _ _ _ _) (by decide)).trans (c := 0x60080000) (by cases v <;> decide)
theorem subReg (a : Reg) (b : Reg) (c : Reg) : Statement (.subReg a b c) :=
  (narrow (mask := 0xe00f0000) (mask_regWord _ _ _ _ _ _) (by decide)).trans (c := 0x90000) (by decide)
theorem sbcReg (a : Reg) (b : Reg) (c : Reg) : Statement (.sbcReg a b c) :=
  (narrow (mask := 0xe00f0000) (mask_regWord _ _ _ _ _ _) (by decide)).trans (c := 0x20090000) (by decide)
theorem subImm (a : Reg) (b : Reg) (v : Bool) (imm : BitVec 16) : Statement (.subImm a b v imm) :=
  (narrow (mask := 0xe00f0000) (mask_immWord _ _ _ _ _ _) (by decide)).trans (c := 0x40090000) (by cases v <;> decide)
theorem sbcImm (a : Reg) (b : Reg) (v : Bool) (imm : BitVec 16) : Statement (.sbcImm a b v imm) :=
  (narrow (mask := 0xe00f0000) (mask_immWord _ _ _ _ _ _) (by decide)).trans (c := 0x60090000) (by cases v <;> decide)
theorem mulReg (a : Reg) (b : Reg) (c : Reg) : Statement (.mulReg a b c) :=
  (narrow (mask := 0xe00f0000) (mask_regWord _ _ _ _ _ _) (by decide)).trans (c := 0xa0000) (by decide)
theorem umulReg (a : Reg) (b : Reg) (c : Reg) : Statement (.umulReg a b c) :=
  (narrow (mask := 0xe00f0000) (mask_regWord _ _ _ _ _ _) (by decide)).trans (c := 0x200a0000) (by decide)
theorem mulImm (a : Reg) (b : Reg) (v : Bool) (imm : BitVec 16) : Statement (.mulImm a b v imm) :=
  (narrow (mask := 0xe00f0000) (mask_immWord _ _ _ _ _ _) (by decide)).trans (c := 0x400a0000) (by cases v <;> decide)
theorem umulImm (a : Reg) (b : Reg) (v : Bool) (imm : BitVec 16) : Statement (.umulImm a b v imm) :=
  (narrow (mask := 0xe00f0000) (mask_immWord _ _ _ _ _ _) (by decide)).trans (c := 0x600a0000) (by cases v <;> decide)
theorem divReg (a : Reg) (b : Reg) (c : Reg) : Statement (.divReg a b c) :=
  (narrow (mask := 0xe00f0000) (mask_regWord _ _ _ _ _ _) (by decide)).trans (c := 0xb0000) (by decide)
theorem udivReg (a : Reg) (b : Reg) (c : Reg) : Statement (.udivReg a b c) :=
  (narrow (mask := 0xe00f0000) (mask_regWord _ _ _ _ _ _) (by decide)).trans (c := 0x200b0000) (by decide)
theorem divImm (a : Reg) (b : Reg) (v : Bool) (imm : BitVec 16) : Statement (.divImm a b v imm) :=
  (narrow (mask := 0xe00f0000) (mask_immWord _ _ _ _ _ _) (by decide)).trans (c := 0x400b0000) (by cases v <;> decide)
theorem udivImm (a : Reg) (b : Reg) (v : Bool) (imm : BitVec 16) : Statement (.udivImm a b v imm) :=
  (narrow (mask := 0xe00f0000) (mask_immWord _ _ _ _ _ _) (by decide)).trans (c := 0x600b0000) (by cases v <;> decide)
theorem fadReg : Statement (.fadReg) :=
  (narrow (mask := 0xc00f0000) (mask_regWord _ _ _ _ _ _) (by decide)).trans (c := 0xc0000) (by decide)
theorem fadImm : Statement (.fadImm) :=
  (narrow (mask := 0xc00f0000) (mask_immWord _ _ _ _ _ _) (by decide)).trans (c := 0x400c0000) (by decide)
theorem fsbReg : Statement (.fsbReg) :=
  (narrow (mask := 0xc00f0000) (mask_regWord _ _ _ _ _ _) (by decide)).trans (c := 0xd0000) (by decide)
theorem fsbImm : Statement (.fsbImm) :=
  (narrow (mask := 0xc00f0000) (mask_immWord _ _ _ _ _ _) (by decide)).trans (c := 0x400d0000) (by decide)
theorem fmlReg : Statement (.fmlReg) :=
  (narrow (mask := 0xc00f0000) (mask_regWord _ _ _ _ _ _) (by decide)).trans (c := 0xe0000) (by decide)
theorem fmlImm : Statement (.fmlImm) :=
  (narrow (mask := 0xc00f0000) (mask_immWord _ _ _ _ _ _) (by decide)).trans (c := 0x400e0000) (by decide)
theorem fdvReg : Statement (.fdvReg) :=
  (narrow (mask := 0xc00f0000) (mask_regWord _ _ _ _ _ _) (by decide)).trans (c := 0xf0000) (by decide)
theorem fdvImm : Statement (.fdvImm) :=
  (narrow (mask := 0xc00f0000) (mask_immWord _ _ _ _ _ _) (by decide)).trans (c := 0x400f0000) (by decide)
theorem ldw (a : Reg) (b : Reg) (off : BitVec 20) : Statement (.ldw a b off) :=
  (narrow (mask := 0xf0000000) (mask_memWord _ _ _ _ _) (by decide)).trans (c := 0x80000000) (by decide)
theorem ldb (a : Reg) (b : Reg) (off : BitVec 20) : Statement (.ldb a b off) :=
  (narrow (mask := 0xf0000000) (mask_memWord _ _ _ _ _) (by decide)).trans (c := 0x90000000) (by decide)
theorem stw (a : Reg) (b : Reg) (off : BitVec 20) : Statement (.stw a b off) :=
  (narrow (mask := 0xf0000000) (mask_memWord _ _ _ _ _) (by decide)).trans (c := 0xa0000000) (by decide)
theorem stb (a : Reg) (b : Reg) (off : BitVec 20) : Statement (.stb a b off) :=
  (narrow (mask := 0xf0000000) (mask_memWord _ _ _ _ _) (by decide)).trans (c := 0xb0000000) (by decide)
theorem bmiInd (c : Reg) : Statement (.bmiInd c) :=
  (narrow (mask := 0xff000000) (mask_brrWord _ _ _) (by decide)).trans (c := 0xc0000000) (by decide)
theorem beqInd (c : Reg) : Statement (.beqInd c) :=
  (narrow (mask := 0xff000000) (mask_brrWord _ _ _) (by decide)).trans (c := 0xc1000000) (by decide)
theorem bcsInd (c : Reg) : Statement (.bcsInd c) :=
  (narrow (mask := 0xff000000) (mask_brrWord _ _ _) (by decide)).trans (c := 0xc2000000) (by decide)
theorem bvsInd (c : Reg) : Statement (.bvsInd c) :=
  (narrow (mask := 0xff000000) (mask_brrWord _ _ _) (by decide)).trans (c := 0xc3000000) (by decide)
theorem blsInd (c : Reg) : Statement (.blsInd c) :=
  (narrow (mask := 0xff000000) (mask_brrWord _ _ _) (by decide)).trans (c := 0xc4000000) (by decide)
theorem bltInd (c : Reg) : Statement (.bltInd c) :=
  (narrow (mask := 0xff000000) (mask_brrWord _ _ _) (by decide)).trans (c := 0xc5000000) (by decide)
theorem bleInd (c : Reg) : Statement (.bleInd c) :=
  (narrow (mask := 0xff000000) (mask_brrWord _ _ _) (by decide)).trans (c := 0xc6000000) (by decide)
theorem bInd (c : Reg) : Statement (.bInd c) :=
  (narrow (mask := 0xff000000) (mask_brrWord _ _ _) (by decide)).trans (c := 0xc7000000) (by decide)
theorem bplInd (c : Reg) : Statement (.bplInd c) :=
  (narrow (mask := 0xff000000) (mask_brrWord _ _ _) (by decide)).trans (c := 0xc8000000) (by decide)
theorem bneInd (c : Reg) : Statement (.bneInd c) :=
  (narrow (mask := 0xff000000) (mask_brrWord _ _ _) (by decide)).trans (c := 0xc9000000) (by decide)
theorem bccInd (c : Reg) : Statement (.bccInd c) :=
  (narrow (mask := 0xff000000) (mask_brrWord _ _ _) (by decide)).trans (c := 0xca000000) (by decide)
theorem bvcInd (c : Reg) : Statement (.bvcInd c) :=
  (narrow (mask := 0xff000000) (mask_brrWord _ _ _) (by decide)).trans (c := 0xcb000000) (by decide)
theorem bhiInd (c : Reg) : Statement (.bhiInd c) :=
  (narrow (mask := 0xff000000) (mask_brrWord _ _ _) (by decide)).trans (c := 0xcc000000) (by decide)
theorem bgeInd (c : Reg) : Statement (.bgeInd c) :=
  (narrow (mask := 0xff000000) (mask_brrWord _ _ _) (by decide)).trans (c := 0xcd000000) (by decide)
theorem bgtInd (c : Reg) : Statement (.bgtInd c) :=
  (narrow (mask := 0xff000000) (mask_brrWord _ _ _) (by decide)).trans (c := 0xce000000) (by decide)
theorem bnvInd (c : Reg) : Statement (.bnvInd c) :=
  (narrow (mask := 0xff000000) (mask_brrWord _ _ _) (by decide)).trans (c := 0xcf000000) (by decide)
theorem blmiInd (c : Reg) : Statement (.blmiInd c) :=
  (narrow (mask := 0xff000000) (mask_brrWord _ _ _) (by decide)).trans (c := 0xd0000000) (by decide)
theorem bleqInd (c : Reg) : Statement (.bleqInd c) :=
  (narrow (mask := 0xff000000) (mask_brrWord _ _ _) (by decide)).trans (c := 0xd1000000) (by decide)
theorem blcsInd (c : Reg) : Statement (.blcsInd c) :=
  (narrow (mask := 0xff000000) (mask_brrWord _ _ _) (by decide)).trans (c := 0xd2000000) (by decide)
theorem blvsInd (c : Reg) : Statement (.blvsInd c) :=
  (narrow (mask := 0xff000000) (mask_brrWord _ _ _) (by decide)).trans (c := 0xd3000000) (by decide)
theorem bllsInd (c : Reg) : Statement (.bllsInd c) :=
  (narrow (mask := 0xff000000) (mask_brrWord _ _ _) (by decide)).trans (c := 0xd4000000) (by decide)
theorem blltInd (c : Reg) : Statement (.blltInd c) :=
  (narrow (mask := 0xff000000) (mask_brrWord _ _ _) (by decide)).trans (c := 0xd5000000) (by decide)
theorem blleInd (c : Reg) : Statement (.blleInd c) :=
  (narrow (mask := 0xff000000) (mask_brrWord _ _ _) (by decide)).trans (c := 0xd6000000) (by decide)
theorem blInd (c : Reg) : Statement (.blInd c) :=
  (narrow (mask := 0xff000000) (mask_brrWord _ _ _) (by decide)).trans (c := 0xd7000000) (by decide)
theorem blplInd (c : Reg) : Statement (.blplInd c) :=
  (narrow (mask := 0xff000000) (mask_brrWord _ _ _) (by decide)).trans (c := 0xd8000000) (by decide)
theorem blneInd (c : Reg) : Statement (.blneInd c) :=
  (narrow (mask := 0xff000000) (mask_brrWord _ _ _) (by decide)).trans (c := 0xd9000000) (by decide)
theorem blccInd (c : Reg) : Statement (.blccInd c) :=
  (narrow (mask := 0xff000000) (mask_brrWord _ _ _) (by decide)).trans (c := 0xda000000) (by decide)
theorem blvcInd (c : Reg) : Statement (.blvcInd c) :=
  (narrow (mask := 0xff000000) (mask_brrWord _ _ _) (by decide)).trans (c := 0xdb000000) (by decide)
theorem blhiInd (c : Reg) : Statement (.blhiInd c) :=
  (narrow (mask := 0xff000000) (mask_brrWord _ _ _) (by decide)).trans (c := 0xdc000000) (by decide)
theorem blgeInd (c : Reg) : Statement (.blgeInd c) :=
  (narrow (mask := 0xff000000) (mask_brrWord _ _ _) (by decide)).trans (c := 0xdd000000) (by decide)
theorem blgtInd (c : Reg) : Statement (.blgtInd c) :=
  (narrow (mask := 0xff000000) (mask_brrWord _ _ _) (by decide)).trans (c := 0xde000000) (by decide)
theorem blnvInd (c : Reg) : Statement (.blnvInd c) :=
  (narrow (mask := 0xff000000) (mask_brrWord _ _ _) (by decide)).trans (c := 0xdf000000) (by decide)
theorem bmiRel (off : BitVec 24) : Statement (.bmiRel off) :=
  (narrow (mask := 0xff000000) (mask_briWord _ _ _) (by decide)).trans (c := 0xe0000000) (by decide)
theorem beqRel (off : BitVec 24) : Statement (.beqRel off) :=
  (narrow (mask := 0xff000000) (mask_briWord _ _ _) (by decide)).trans (c := 0xe1000000) (by decide)
theorem bcsRel (off : BitVec 24) : Statement (.bcsRel off) :=
  (narrow (mask := 0xff000000) (mask_briWord _ _ _) (by decide)).trans (c := 0xe2000000) (by decide)
theorem bvsRel (off : BitVec 24) : Statement (.bvsRel off) :=
  (narrow (mask := 0xff000000) (mask_briWord _ _ _) (by decide)).trans (c := 0xe3000000) (by decide)
theorem blsRel (off : BitVec 24) : Statement (.blsRel off) :=
  (narrow (mask := 0xff000000) (mask_briWord _ _ _) (by decide)).trans (c := 0xe4000000) (by decide)
theorem bltRel (off : BitVec 24) : Statement (.bltRel off) :=
  (narrow (mask := 0xff000000) (mask_briWord _ _ _) (by decide)).trans (c := 0xe5000000) (by decide)
theorem bleRel (off : BitVec 24) : Statement (.bleRel off) :=
  (narrow (mask := 0xff000000) (mask_briWord _ _ _) (by decide)).trans (c := 0xe6000000) (by decide)
theorem bRel (off : BitVec 24) : Statement (.bRel off) :=
  (narrow (mask := 0xff000000) (mask_briWord _ _ _) (by decide)).trans (c := 0xe7000000) (by decide)
theorem bplRel (off : BitVec 24) : Statement (.bplRel off) :=
  (narrow (mask := 0xff000000) (mask_briWord _ _ _) (by decide)).trans (c := 0xe8000000) (by decide)
theorem bneRel (off : BitVec 24) : Statement (.bneRel off) :=
  (narrow (mask := 0xff000000) (mask_briWord _ _ _) (by decide)).trans (c := 0xe9000000) (by decide)
theorem bccRel (off : BitVec 24) : Statement (.bccRel off) :=
  (narrow (mask := 0xff000000) (mask_briWord _ _ _) (by decide)).trans (c := 0xea000000) (by decide)
theorem bvcRel (off : BitVec 24) : Statement (.bvcRel off) :=
  (narrow (mask := 0xff000000) (mask_briWord _ _ _) (by decide)).trans (c := 0xeb000000) (by decide)
theorem bhiRel (off : BitVec 24) : Statement (.bhiRel off) :=
  (narrow (mask := 0xff000000) (mask_briWord _ _ _) (by decide)).trans (c := 0xec000000) (by decide)
theorem bgeRel (off : BitVec 24) : Statement (.bgeRel off) :=
  (narrow (mask := 0xff000000) (mask_briWord _ _ _) (by decide)).trans (c := 0xed000000) (by decide)
theorem bgtRel (off : BitVec 24) : Statement (.bgtRel off) :=
  (narrow (mask := 0xff000000) (mask_briWord _ _ _) (by decide)).trans (c := 0xee000000) (by decide)
theorem bnvRel (off : BitVec 24) : Statement (.bnvRel off) :=
  (narrow (mask := 0xff000000) (mask_briWord _ _ _) (by decide)).trans (c := 0xef000000) (by decide)
theorem blmiRel (off : BitVec 24) : Statement (.blmiRel off) :=
  (narrow (mask := 0xff000000) (mask_briWord _ _ _) (by decide)).trans (c := 0xf0000000) (by decide)
theorem bleqRel (off : BitVec 24) : Statement (.bleqRel off) :=
  (narrow (mask := 0xff000000) (mask_briWord _ _ _) (by decide)).trans (c := 0xf1000000) (by decide)
theorem blcsRel (off : BitVec 24) : Statement (.blcsRel off) :=
  (narrow (mask := 0xff000000) (mask_briWord _ _ _) (by decide)).trans (c := 0xf2000000) (by decide)
theorem blvsRel (off : BitVec 24) : Statement (.blvsRel off) :=
  (narrow (mask := 0xff000000) (mask_briWord _ _ _) (by decide)).trans (c := 0xf3000000) (by decide)
theorem bllsRel (off : BitVec 24) : Statement (.bllsRel off) :=
  (narrow (mask := 0xff000000) (mask_briWord _ _ _) (by decide)).trans (c := 0xf4000000) (by decide)
theorem blltRel (off : BitVec 24) : Statement (.blltRel off) :=
  (narrow (mask := 0xff000000) (mask_briWord _ _ _) (by decide)).trans (c := 0xf5000000) (by decide)
theorem blleRel (off : BitVec 24) : Statement (.blleRel off) :=
  (narrow (mask := 0xff000000) (mask_briWord _ _ _) (by decide)).trans (c := 0xf6000000) (by decide)
theorem blRel (off : BitVec 24) : Statement (.blRel off) :=
  (narrow (mask := 0xff000000) (mask_briWord _ _ _) (by decide)).trans (c := 0xf7000000) (by decide)
theorem blplRel (off : BitVec 24) : Statement (.blplRel off) :=
  (narrow (mask := 0xff000000) (mask_briWord _ _ _) (by decide)).trans (c := 0xf8000000) (by decide)
theorem blneRel (off : BitVec 24) : Statement (.blneRel off) :=
  (narrow (mask := 0xff000000) (mask_briWord _ _ _) (by decide)).trans (c := 0xf9000000) (by decide)
theorem blccRel (off : BitVec 24) : Statement (.blccRel off) :=
  (narrow (mask := 0xff000000) (mask_briWord _ _ _) (by decide)).trans (c := 0xfa000000) (by decide)
theorem blvcRel (off : BitVec 24) : Statement (.blvcRel off) :=
  (narrow (mask := 0xff000000) (mask_briWord _ _ _) (by decide)).trans (c := 0xfb000000) (by decide)
theorem blhiRel (off : BitVec 24) : Statement (.blhiRel off) :=
  (narrow (mask := 0xff000000) (mask_briWord _ _ _) (by decide)).trans (c := 0xfc000000) (by decide)
theorem blgeRel (off : BitVec 24) : Statement (.blgeRel off) :=
  (narrow (mask := 0xff000000) (mask_briWord _ _ _) (by decide)).trans (c := 0xfd000000) (by decide)
theorem blgtRel (off : BitVec 24) : Statement (.blgtRel off) :=
  (narrow (mask := 0xff000000) (mask_briWord _ _ _) (by decide)).trans (c := 0xfe000000) (by decide)
theorem blnvRel (off : BitVec 24) : Statement (.blnvRel off) :=
  (narrow (mask := 0xff000000) (mask_briWord _ _ _) (by decide)).trans (c := 0xff000000) (by decide)

end Sys2Proof.Laws.EncodesItsRow
end

