-- ==== Sys2Proof/Tests/Slice0.lean ====
section
/-! SUPPORT. The model's own tests: ill-formed terms the checks refuse, words written out from the encoding tables of
30_encoding.md, single steps with the results 95_test_vectors.md and the examples of the rule files print, and for every
statement with hypotheses a concrete case that meets them all. -/

namespace Sys2Proof.Tests

open Sys2Proof.Machine

/-! ### Well-formedness: each check refuses an ill-formed term (10_state.md R40; 44_unit_builder.md R223; 30_encoding.md R95) -/

theorem test_wf_default_launch : ({} : Launch).wf = true := by decide
theorem test_wf_misaligned_reset_pc : ({ resetPc := 0x102 } : Launch).wf = false := by decide
theorem test_wf_cap_zero : ({ maxInsns := 0 } : Launch).wf = false := by decide
theorem test_wf_unsorted_memory : ({ mem := [(8, 1), (4, 2)] } : Launch).wf = false := by decide
theorem test_wf_repeated_address : ({ mem := [(4, 1), (4, 2)] } : Launch).wf = false := by decide
theorem test_wf_unsorted_fetch_map : ({ fetchMap := [(8, 1), (4, 2)] } : Launch).wf = false := by decide
theorem test_wf_address_out_of_space : ({ mem := [(2 ^ 32, 1)] } : Launch).wf = false := by decide
theorem test_wf_highest_address : ({ mem := [(2 ^ 32 - 1, 1)] } : Launch).wf = true := by decide

theorem test_canonical_words :
    [0x01000002, 0x23000000, 0x5100FFFF, 0x61001234, 0x000C0000, 0x01210003, 0x21280003, 0x4121001F,
      0xC7000003, 0x81200000, 0xE1000007].all (fun w => canonicalWord w) = true := by decide
/-- One word for each line of the table of 30_encoding.md R95, with one ignored bit set. -/
theorem test_words_with_an_ignored_bit :
    [0x11000002, 0x23000001, 0x41100000, 0x71001234, 0x012C0003, 0x11210003, 0x11280003, 0x6121001F,
      0xC7000013].all (fun w => !canonicalWord w) = true := by decide

/-! ### Decoding: a word of every row, from its match value and its fields (30_encoding.md R82 to R86, R102) -/

/-- `MOV R1, R2`: class 00, u 0, v 0, a 0001, b 0000, op 0000, 12 ignored bits, c 0010. -/
theorem test_bits_mov : decodeWord 0b00000001000000000000000000000010 = .movReg 1 2 := by decide
/-- `ROR R1, R2, #31`: class 01, u 0, v 0, a 0001, b 0010, op 0011, imm 31. -/
theorem test_bits_ror : decodeWord 0b01000001001000110000000000011111 = .rorImm 1 2 false 31 := by decide
/-- `XOR R12, R5, #-1`: class 01, u 0, v 1, a 1100, b 0101, op 0111, imm all ones. -/
theorem test_bits_xor : decodeWord 0b01011100010101111111111111111111 = .xorImm 12 5 true 0xFFFF := by decide
/-- `SBC R1, R2, R3`: class 00, u 1, v 0, a 0001, b 0010, op 1001, c 0011. -/
theorem test_bits_sbc : decodeWord 0b00100001001010010000000000000011 = .sbcReg 1 2 3 := by decide
/-- `UMUL R1, R2, R3`: class 00, u 1, v 0, a 0001, b 0010, op 1010, c 0011. -/
theorem test_bits_umul : decodeWord 0b00100001001010100000000000000011 = .umulReg 1 2 3 := by decide
/-- `FML R1, R2, R3`: class 00, op 1110. -/
theorem test_bits_fml : decodeWord 0b00000001001011100000000000000011 = .fmlReg := by decide
/-- `STB R1, R2, #-1`: class 10, store 1, byte 1, a 0001, b 0010, off20 all ones. -/
theorem test_bits_stb : decodeWord 0b10110001001011111111111111111111 = .stb 1 2 0xFFFFF := by decide
/-- `BLGE R9`: class 11, u 0, v 1, inv 1, cond 101, 20 ignored bits, c 1001. -/
theorem test_bits_blge : decodeWord 0b11011101000000000000000000001001 = .blgeInd 9 := by decide
/-- `BHI` with off24 = -2: class 11, u 1, v 0, inv 1, cond 100. -/
theorem test_bits_bhi : decodeWord 0b11101100111111111111111111111110 = .bhiRel 0xFFFFFE := by decide

theorem test_decode_reg_1 :
    decodeWord 0x01000003 = .movReg 1 3 ∧ decodeWord 0x21000000 = .movH 1
    ∧ decodeWord 0x31000000 = .movFlags 1 ∧ decodeWord 0x01210003 = .lslReg 1 2 3
    ∧ decodeWord 0x01220003 = .asrReg 1 2 3 ∧ decodeWord 0x01230003 = .rorReg 1 2 3
    ∧ decodeWord 0x01240003 = .andReg 1 2 3 ∧ decodeWord 0x01250003 = .annReg 1 2 3 := by decide
theorem test_decode_reg_2 :
    decodeWord 0x01260003 = .iorReg 1 2 3 ∧ decodeWord 0x01270003 = .xorReg 1 2 3
    ∧ decodeWord 0x01280003 = .addReg 1 2 3 ∧ decodeWord 0x21280003 = .adcReg 1 2 3
    ∧ decodeWord 0x01290003 = .subReg 1 2 3 ∧ decodeWord 0x21290003 = .sbcReg 1 2 3
    ∧ decodeWord 0x012A0003 = .mulReg 1 2 3 ∧ decodeWord 0x212A0003 = .umulReg 1 2 3 := by decide
theorem test_decode_reg_3 :
    decodeWord 0x012B0003 = .divReg 1 2 3 ∧ decodeWord 0x212B0003 = .udivReg 1 2 3
    ∧ decodeWord 0x012C0003 = .fadReg ∧ decodeWord 0x012D0003 = .fsbReg
    ∧ decodeWord 0x012E0003 = .fmlReg ∧ decodeWord 0x012F0003 = .fdvReg := by decide
theorem test_decode_imm_1 :
    decodeWord 0x51008006 = .movImm 1 true 0x8006 ∧ decodeWord 0x61008006 = .movhi 1 0x8006
    ∧ decodeWord 0x51218006 = .lslImm 1 2 true 0x8006 ∧ decodeWord 0x51228006 = .asrImm 1 2 true 0x8006
    ∧ decodeWord 0x51238006 = .rorImm 1 2 true 0x8006 ∧ decodeWord 0x51248006 = .andImm 1 2 true 0x8006
    ∧ decodeWord 0x51258006 = .annImm 1 2 true 0x8006 ∧ decodeWord 0x51268006 = .iorImm 1 2 true 0x8006 := by decide
theorem test_decode_imm_2 :
    decodeWord 0x51278006 = .xorImm 1 2 true 0x8006 ∧ decodeWord 0x51288006 = .addImm 1 2 true 0x8006
    ∧ decodeWord 0x71288006 = .adcImm 1 2 true 0x8006 ∧ decodeWord 0x51298006 = .subImm 1 2 true 0x8006
    ∧ decodeWord 0x71298006 = .sbcImm 1 2 true 0x8006 ∧ decodeWord 0x512A8006 = .mulImm 1 2 true 0x8006
    ∧ decodeWord 0x712A8006 = .umulImm 1 2 true 0x8006 ∧ decodeWord 0x512B8006 = .divImm 1 2 true 0x8006 := by decide
theorem test_decode_imm_3 :
    decodeWord 0x712B8006 = .udivImm 1 2 true 0x8006 ∧ decodeWord 0x412C0003 = .fadImm
    ∧ decodeWord 0x412D0003 = .fsbImm ∧ decodeWord 0x412E0003 = .fmlImm
    ∧ decodeWord 0x412F0003 = .fdvImm := by decide
theorem test_decode_mem_1 :
    decodeWord 0x81280005 = .ldw 1 2 0x80005 ∧ decodeWord 0x91280005 = .ldb 1 2 0x80005
    ∧ decodeWord 0xA1280005 = .stw 1 2 0x80005 ∧ decodeWord 0xB1280005 = .stb 1 2 0x80005 := by decide
theorem test_decode_indirect_1 :
    decodeWord 0xC0000003 = .bmiInd 3 ∧ decodeWord 0xC1000003 = .beqInd 3
    ∧ decodeWord 0xC2000003 = .bcsInd 3 ∧ decodeWord 0xC3000003 = .bvsInd 3
    ∧ decodeWord 0xC4000003 = .blsInd 3 ∧ decodeWord 0xC5000003 = .bltInd 3
    ∧ decodeWord 0xC6000003 = .bleInd 3 ∧ decodeWord 0xC7000003 = .bInd 3 := by decide
theorem test_decode_indirect_2 :
    decodeWord 0xC8000003 = .bplInd 3 ∧ decodeWord 0xC9000003 = .bneInd 3
    ∧ decodeWord 0xCA000003 = .bccInd 3 ∧ decodeWord 0xCB000003 = .bvcInd 3
    ∧ decodeWord 0xCC000003 = .bhiInd 3 ∧ decodeWord 0xCD000003 = .bgeInd 3
    ∧ decodeWord 0xCE000003 = .bgtInd 3 ∧ decodeWord 0xCF000003 = .bnvInd 3 := by decide
theorem test_decode_indirect_3 :
    decodeWord 0xD0000003 = .blmiInd 3 ∧ decodeWord 0xD1000003 = .bleqInd 3
    ∧ decodeWord 0xD2000003 = .blcsInd 3 ∧ decodeWord 0xD3000003 = .blvsInd 3
    ∧ decodeWord 0xD4000003 = .bllsInd 3 ∧ decodeWord 0xD5000003 = .blltInd 3
    ∧ decodeWord 0xD6000003 = .blleInd 3 ∧ decodeWord 0xD7000003 = .blInd 3 := by decide
theorem test_decode_indirect_4 :
    decodeWord 0xD8000003 = .blplInd 3 ∧ decodeWord 0xD9000003 = .blneInd 3
    ∧ decodeWord 0xDA000003 = .blccInd 3 ∧ decodeWord 0xDB000003 = .blvcInd 3
    ∧ decodeWord 0xDC000003 = .blhiInd 3 ∧ decodeWord 0xDD000003 = .blgeInd 3
    ∧ decodeWord 0xDE000003 = .blgtInd 3 ∧ decodeWord 0xDF000003 = .blnvInd 3 := by decide
theorem test_decode_relative_1 :
    decodeWord 0xE0800007 = .bmiRel 0x800007 ∧ decodeWord 0xE1800007 = .beqRel 0x800007
    ∧ decodeWord 0xE2800007 = .bcsRel 0x800007 ∧ decodeWord 0xE3800007 = .bvsRel 0x800007
    ∧ decodeWord 0xE4800007 = .blsRel 0x800007 ∧ decodeWord 0xE5800007 = .bltRel 0x800007
    ∧ decodeWord 0xE6800007 = .bleRel 0x800007 ∧ decodeWord 0xE7800007 = .bRel 0x800007 := by decide
theorem test_decode_relative_2 :
    decodeWord 0xE8800007 = .bplRel 0x800007 ∧ decodeWord 0xE9800007 = .bneRel 0x800007
    ∧ decodeWord 0xEA800007 = .bccRel 0x800007 ∧ decodeWord 0xEB800007 = .bvcRel 0x800007
    ∧ decodeWord 0xEC800007 = .bhiRel 0x800007 ∧ decodeWord 0xED800007 = .bgeRel 0x800007
    ∧ decodeWord 0xEE800007 = .bgtRel 0x800007 ∧ decodeWord 0xEF800007 = .bnvRel 0x800007 := by decide
theorem test_decode_relative_3 :
    decodeWord 0xF0800007 = .blmiRel 0x800007 ∧ decodeWord 0xF1800007 = .bleqRel 0x800007
    ∧ decodeWord 0xF2800007 = .blcsRel 0x800007 ∧ decodeWord 0xF3800007 = .blvsRel 0x800007
    ∧ decodeWord 0xF4800007 = .bllsRel 0x800007 ∧ decodeWord 0xF5800007 = .blltRel 0x800007
    ∧ decodeWord 0xF6800007 = .blleRel 0x800007 ∧ decodeWord 0xF7800007 = .blRel 0x800007 := by decide
theorem test_decode_relative_4 :
    decodeWord 0xF8800007 = .blplRel 0x800007 ∧ decodeWord 0xF9800007 = .blneRel 0x800007
    ∧ decodeWord 0xFA800007 = .blccRel 0x800007 ∧ decodeWord 0xFB800007 = .blvcRel 0x800007
    ∧ decodeWord 0xFC800007 = .blhiRel 0x800007 ∧ decodeWord 0xFD800007 = .blgeRel 0x800007
    ∧ decodeWord 0xFE800007 = .blgtRel 0x800007 ∧ decodeWord 0xFF800007 = .blnvRel 0x800007 := by decide

theorem test_decode_too_short : decode [0x02, 0x00, 0x00] = .error .tooShort := by decide
theorem test_decode_little_endian : decode [0x02, 0x00, 0x00, 0x01, 0xAA] = .ok (.movReg 1 2, [0xAA]) := by decide
theorem test_decode_table_word : decodeTableWord 32 0xC700000F = some (.bInd 15) := by decide
/-- An ignored bit changes nothing: bits 27 to 20 and 15 to 0 of a placeholder, bits 23 to 4 of a branch. -/
theorem test_decode_ignored_bits : decodeWord 0x7FFFFFFF = .fdvImm ∧ decodeWord 0xC7FFFFF3 = .bInd 3
    ∧ decodeWord 0x01F0FFF2 = .movReg 1 2 := by decide

/-! ### One instruction (95_test_vectors.md part 2): address 0x100, the state the row lists, the result it prints -/

/-- The start state of a row: registers, `H`, the flags `NZCV` and `pc`. -/
def start (regs : List (Reg × Word)) (h : Word) (nzcv : BitVec 4) (pc : Word) : State :=
  regs.foldl (fun s p => s.setReg p.1 p.2)
    { State.reset with H := h, pc := pc, N := nzcv[3], Z := nzcv[2], C := nzcv[1], V := nzcv[0] }

/-- The data memory of the rows of section 2.8. -/
def image : Memory :=
  [(0x2000, 0x78), (0x2001, 0x56), (0x2002, 0x34), (0x2003, 0x12), (0x2004, 0xEF), (0x2005, 0xBE), (0x2006, 0xAD),
   (0x2007, 0xDE), (0x2008, 0), (0x2009, 0), (0x200A, 0), (0x200B, 0), (0x200C, 0x80), (0x200D, 0xFF), (0x200E, 0),
   (0x200F, 0x7F)]

/-- The word completes, leaving `x[r]`, `H`, the flags and `pc` as given. -/
def leaves (w : Word) (s : State) (r : Reg) (d h : Word) (nzcv : BitVec 4) (pc : Word) : Bool :=
  match exec (decodeWord w) s with
  | .next t => t.reg r == d && t.H == h && [t.N, t.Z, t.C, t.V] == [nzcv[3], nzcv[2], nzcv[1], nzcv[0]] && t.pc == pc
  | _ => false

/-- The word completes, leaving the data memory as given. -/
def stores (w : Word) (s : State) (m : Memory) : Bool :=
  match exec (decodeWord w) s with
  | .next t => t.mem == m
  | _ => false

/-- The word raises the signal. -/
def raises (w : Word) (s : State) (signal : Fault) : Bool := signalOf (exec (decodeWord w) s) == some signal

/-- `MOV R1, R2` -/
theorem test_movReg_1 : leaves 0x01000002
    (start [(2, 0x12345678)] 0x0 0b0111 0x100) 1 0x12345678 0x0 0b0011 0x104 = true := by decide
/-- `MOV R1, R1` -/
theorem test_movReg_2 : leaves 0x01000001
    (start [(1, 0xFFFFFFFF)] 0x0 0b0110 0x100) 1 0xFFFFFFFF 0x0 0b1010 0x104 = true := by decide
/-- `MOV R3, H` -/
theorem test_movH_1 : leaves 0x23000000
    (start [] 0xFFFFFFFE 0b0000 0x100) 3 0xFFFFFFFE 0xFFFFFFFE 0b1000 0x104 = true := by decide
/-- `MOV R3, H` -/
theorem test_movH_2 : leaves 0x23000000
    (start [(3, 0x00000007)] 0x0 0b0000 0x100) 3 0x00000000 0x0 0b0100 0x104 = true := by decide
/-- `MOV R4, FLAGS` -/
theorem test_movFlags_1 : leaves 0x34000000
    (start [] 0x0 0b1010 0x100) 4 0x0000000A 0x0 0b0010 0x104 = true := by decide
/-- `MOV R4, FLAGS` -/
theorem test_movFlags_2 : leaves 0x34000000
    (start [] 0x0 0b0101 0x100) 4 0x00000005 0x0 0b0001 0x104 = true := by decide
/-- `MOV R1, #0x1234` -/
theorem test_movImm_1 : leaves 0x41001234
    (start [] 0x0 0b0000 0x100) 1 0x00001234 0x0 0b0000 0x104 = true := by decide
/-- `MOV R1, #-1` -/
theorem test_movImm_2 : leaves 0x5100FFFF
    (start [] 0x0 0b0000 0x100) 1 0xFFFFFFFF 0x0 0b1000 0x104 = true := by decide
/-- `MOVHI R1, #0x1234` -/
theorem test_movhi_1 : leaves 0x61001234
    (start [] 0x0 0b0000 0x100) 1 0x12340000 0x0 0b0000 0x104 = true := by decide
/-- `MOVHI R1, #0x8000 (v=1, mode 7)` -/
theorem test_movhi_2 : leaves 0x71008000
    (start [] 0x0 0b0000 0x100) 1 0x80000000 0x0 0b1000 0x104 = true := by decide
/-- `LSL R1, R2, #0` -/
theorem test_lslImm_1 : leaves 0x41210000
    (start [(2, 0x80000001)] 0x0 0b0000 0x100) 1 0x80000001 0x0 0b1000 0x104 = true := by decide
/-- `LSL R1, R2, #-1 (amount 31)` -/
theorem test_lslImm_2 : leaves 0x5121FFFF
    (start [(2, 0x00000003)] 0x0 0b0000 0x100) 1 0x80000000 0x0 0b1000 0x104 = true := by decide
/-- `LSL R1, R2, R3` -/
theorem test_lslReg_1 : leaves 0x01210003
    (start [(2, 0x0000FFFF), (3, 0xFFFFFFF0)] 0x0 0b0000 0x100) 1 0xFFFF0000 0x0 0b1000 0x104 = true := by decide
/-- `LSL R1, R1, R1` -/
theorem test_lslReg_2 : leaves 0x01110001
    (start [(1, 0x00000003)] 0x0 0b0000 0x100) 1 0x00000018 0x0 0b0000 0x104 = true := by decide
/-- `ASR R1, R2, #0` -/
theorem test_asrImm_1 : leaves 0x41220000
    (start [(2, 0x80000010)] 0x0 0b0000 0x100) 1 0x80000010 0x0 0b1000 0x104 = true := by decide
/-- `ASR R1, R2, #1` -/
theorem test_asrImm_2 : leaves 0x41220001
    (start [(2, 0x00000001)] 0x0 0b0000 0x100) 1 0x00000000 0x0 0b0100 0x104 = true := by decide
/-- `ASR R1, R2, R3` -/
theorem test_asrReg_1 : leaves 0x01220003
    (start [(2, 0xFFFFFFFF), (3, 0x0000001F)] 0x0 0b0000 0x100) 1 0xFFFFFFFF 0x0 0b1000 0x104 = true := by decide
/-- `ROR R1, R2, #0` -/
theorem test_rorImm_1 : leaves 0x41230000
    (start [(2, 0x12345678)] 0x0 0b0000 0x100) 1 0x12345678 0x0 0b0000 0x104 = true := by decide
/-- `ROR R1, R2, #36` -/
theorem test_rorImm_2 : leaves 0x41230024
    (start [(2, 0x12345678)] 0x0 0b0000 0x100) 1 0x81234567 0x0 0b1000 0x104 = true := by decide
/-- `ROR R1, R2, R3` -/
theorem test_rorReg_1 : leaves 0x01230003
    (start [(2, 0x00000001), (3, 0x00000001)] 0x0 0b0000 0x100) 1 0x80000000 0x0 0b1000 0x104 = true := by decide
/-- `ROR R1, R2, R3` -/
theorem test_rorReg_2 : leaves 0x01230003
    (start [(2, 0x12345678), (3, 0xFFFFFFFC)] 0x0 0b0000 0x100) 1 0x23456781 0x0 0b0000 0x104 = true := by decide
/-- `AND R1, R2, R3` -/
theorem test_andReg_1 : leaves 0x01240003
    (start [(2, 0xFF00FF00), (3, 0x0FF00FF0)] 0x0 0b0011 0x100) 1 0x0F000F00 0x0 0b0011 0x104 = true := by decide
/-- `AND R1, R2, R3` -/
theorem test_andReg_2 : leaves 0x01240003
    (start [(1, 0x00000001), (2, 0xF0F0F0F0), (3, 0x0F0F0F0F)] 0x0 0b0000 0x100) 1 0x00000000 0x0 0b0100 0x104 = true := by decide
/-- `AND R1, R2, #0xFF00` -/
theorem test_andImm_1 : leaves 0x4124FF00
    (start [(2, 0xFFFFFFFF)] 0x0 0b0000 0x100) 1 0x0000FF00 0x0 0b0000 0x104 = true := by decide
/-- `AND R1, R2, #-256` -/
theorem test_andImm_2 : leaves 0x5124FF00
    (start [(2, 0x12345678)] 0x0 0b0000 0x100) 1 0x12345600 0x0 0b0000 0x104 = true := by decide
/-- `ANN R1, R2, R3` -/
theorem test_annReg_1 : leaves 0x01250003
    (start [(2, 0xFFFFFFFF), (3, 0x0000FFFF)] 0x0 0b0000 0x100) 1 0xFFFF0000 0x0 0b1000 0x104 = true := by decide
/-- `ANN R1, R2, R2` -/
theorem test_annReg_2 : leaves 0x01250002
    (start [(1, 0x00000001), (2, 0xDEADBEEF)] 0x0 0b0000 0x100) 1 0x00000000 0x0 0b0100 0x104 = true := by decide
/-- `ANN R1, R2, #0xFF` -/
theorem test_annImm_1 : leaves 0x412500FF
    (start [(2, 0x12345678)] 0x0 0b0000 0x100) 1 0x12345600 0x0 0b0000 0x104 = true := by decide
/-- `ANN R1, R2, #-1` -/
theorem test_annImm_2 : leaves 0x5125FFFF
    (start [(1, 0x00000001), (2, 0x12345678)] 0x0 0b0000 0x100) 1 0x00000000 0x0 0b0100 0x104 = true := by decide
/-- `IOR R1, R2, R3` -/
theorem test_iorReg_1 : leaves 0x01260003
    (start [(2, 0x12340000), (3, 0x00005678)] 0x0 0b0000 0x100) 1 0x12345678 0x0 0b0000 0x104 = true := by decide
/-- `IOR R1, R1, R1` -/
theorem test_iorReg_2 : leaves 0x01160001
    (start [(1, 0x00000000)] 0x0 0b1011 0x100) 1 0x00000000 0x0 0b0111 0x104 = true := by decide
/-- `IOR R1, R2, #0x5678` -/
theorem test_iorImm_1 : leaves 0x41265678
    (start [(2, 0x12340000)] 0x0 0b0000 0x100) 1 0x12345678 0x0 0b0000 0x104 = true := by decide
/-- `IOR R1, R2, #-32768` -/
theorem test_iorImm_2 : leaves 0x51268000
    (start [(2, 0x00000001)] 0x0 0b0000 0x100) 1 0xFFFF8001 0x0 0b1000 0x104 = true := by decide
/-- `XOR R1, R2, R3` -/
theorem test_xorReg_1 : leaves 0x01270003
    (start [(2, 0xAAAAAAAA), (3, 0xFFFFFFFF)] 0x0 0b0000 0x100) 1 0x55555555 0x0 0b0000 0x104 = true := by decide
/-- `XOR R1, R2, R2` -/
theorem test_xorReg_2 : leaves 0x01270002
    (start [(1, 0x00000001), (2, 0x12345678)] 0x0 0b0000 0x100) 1 0x00000000 0x0 0b0100 0x104 = true := by decide
/-- `XOR R1, R2, #-1` -/
theorem test_xorImm_1 : leaves 0x5127FFFF
    (start [(2, 0x00000000)] 0x0 0b0000 0x100) 1 0xFFFFFFFF 0x0 0b1000 0x104 = true := by decide
/-- `XOR R1, R2, #0xFFFF` -/
theorem test_xorImm_2 : leaves 0x4127FFFF
    (start [(2, 0x00000000)] 0x0 0b0000 0x100) 1 0x0000FFFF 0x0 0b0000 0x104 = true := by decide
/-- `ADD R1, R2, R3` -/
theorem test_addReg_1 : leaves 0x01280003
    (start [(2, 0x7FFFFFFF), (3, 0x00000001)] 0x0 0b0000 0x100) 1 0x80000000 0x0 0b1001 0x104 = true := by decide
/-- `ADD R1, R2, R3` -/
theorem test_addReg_2 : leaves 0x01280003
    (start [(2, 0xFFFFFFFF), (3, 0x00000001)] 0x0 0b0000 0x100) 1 0x00000000 0x0 0b0110 0x104 = true := by decide
/-- `ADD R1, R2, #1` -/
theorem test_addImm_1 : leaves 0x41280001
    (start [(2, 0x7FFFFFFF)] 0x0 0b0000 0x100) 1 0x80000000 0x0 0b1001 0x104 = true := by decide
/-- `ADD R1, R2, #-1` -/
theorem test_addImm_2 : leaves 0x5128FFFF
    (start [(2, 0x00000005)] 0x0 0b0000 0x100) 1 0x00000004 0x0 0b0010 0x104 = true := by decide
/-- `ADC R1, R2, R3` -/
theorem test_adcReg_1 : leaves 0x21280003
    (start [(2, 0x00000001), (3, 0x00000002)] 0x0 0b0010 0x100) 1 0x00000004 0x0 0b0000 0x104 = true := by decide
/-- `ADC R1, R2, R3 (conflict C1 corner)` -/
theorem test_adcReg_2 : leaves 0x21280003
    (start [(2, 0x00000005), (3, 0xFFFFFFFF)] 0x0 0b0010 0x100) 1 0x00000005 0x0 0b0000 0x104 = true := by decide
/-- `ADC R1, R2, #-1 (conflict C1 corner)` -/
theorem test_adcImm_1 : leaves 0x7128FFFF
    (start [(2, 0x00000000)] 0x0 0b0010 0x100) 1 0x00000000 0x0 0b0100 0x104 = true := by decide
/-- `SUB R1, R2, R3` -/
theorem test_subReg_1 : leaves 0x01290003
    (start [(2, 0x00000005), (3, 0x00000003)] 0x0 0b0000 0x100) 1 0x00000002 0x0 0b0000 0x104 = true := by decide
/-- `SUB R1, R2, R3` -/
theorem test_subReg_2 : leaves 0x01290003
    (start [(2, 0x00000000), (3, 0x80000000)] 0x0 0b0000 0x100) 1 0x80000000 0x0 0b1011 0x104 = true := by decide
/-- `SUB R1, R2, #1` -/
theorem test_subImm_1 : leaves 0x41290001
    (start [(2, 0x80000000)] 0x0 0b0000 0x100) 1 0x7FFFFFFF 0x0 0b0001 0x104 = true := by decide
/-- `SUB R1, R2, #-1` -/
theorem test_subImm_2 : leaves 0x5129FFFF
    (start [(2, 0x7FFFFFFF)] 0x0 0b0000 0x100) 1 0x80000000 0x0 0b1011 0x104 = true := by decide
/-- `SBC R1, R2, R3` -/
theorem test_sbcReg_1 : leaves 0x21290003
    (start [(2, 0x00000005), (3, 0x00000003)] 0x0 0b0010 0x100) 1 0x00000001 0x0 0b0000 0x104 = true := by decide
/-- `SBC R1, R2, R3 (conflict C1 corner)` -/
theorem test_sbcReg_2 : leaves 0x21290003
    (start [(2, 0x00000005), (3, 0xFFFFFFFF)] 0x0 0b0010 0x100) 1 0x00000005 0x0 0b0000 0x104 = true := by decide
/-- `MUL R1, R2, R3` -/
theorem test_mulReg_1 : leaves 0x012A0003
    (start [(2, 0xFFFFFFFF), (3, 0xFFFFFFFF)] 0x55 0b0000 0x100) 1 0x00000001 0x0 0b0000 0x104 = true := by decide
/-- `MUL R1, R2, R3` -/
theorem test_mulReg_2 : leaves 0x012A0003
    (start [(2, 0x12345678), (3, 0x9ABCDEF0)] 0x0 0b0000 0x100) 1 0x242D2080 0xF8CC93D6 0b0000 0x104 = true := by decide
/-- `UMUL R1, R2, R3` -/
theorem test_umulReg_1 : leaves 0x212A0003
    (start [(2, 0xFFFFFFFF), (3, 0xFFFFFFFF)] 0x55 0b0000 0x100) 1 0x00000001 0xFFFFFFFE 0b0000 0x104 = true := by decide
/-- `UMUL R1, R2, R3` -/
theorem test_umulReg_2 : leaves 0x212A0003
    (start [(2, 0x12345678), (3, 0x9ABCDEF0)] 0x0 0b0000 0x100) 1 0x242D2080 0xB00EA4E 0b0000 0x104 = true := by decide
/-- `MUL R1, R2, #-2` -/
theorem test_mulImm_1 : leaves 0x512AFFFE
    (start [(2, 0x00000007)] 0x0 0b0000 0x100) 1 0xFFFFFFF2 0xFFFFFFFF 0b1000 0x104 = true := by decide
/-- `MUL R1, R2, #0` -/
theorem test_mulImm_2 : leaves 0x412A0000
    (start [(1, 0x00000004), (2, 0x12345678)] 0x99 0b1011 0x100) 1 0x00000000 0x0 0b0111 0x104 = true := by decide
/-- `UMUL R1, R2, #-2` -/
theorem test_umulImm_1 : leaves 0x712AFFFE
    (start [(2, 0x00000007)] 0x0 0b0000 0x100) 1 0xFFFFFFF2 0x6 0b1000 0x104 = true := by decide
/-- `DIV R1, R2, R3` -/
theorem test_divReg_1 : leaves 0x012B0003
    (start [(2, 0xFFFFFFF9), (3, 0x00000002)] 0x55 0b0000 0x100) 1 0xFFFFFFFD 0xFFFFFFFF 0b1000 0x104 = true := by decide
/-- `DIV R1, R2, R3 (zero divisor)` -/
theorem test_divReg_2 : raises 0x012B0003
    (start [(1, 0x00000011), (2, 0x00000007), (3, 0x00000000)] 0x55 0b1010 0x100) (.divideByZero 0x100) = true := by decide
/-- `DIV R1, R2, #3` -/
theorem test_divImm_1 : leaves 0x412B0003
    (start [(2, 0xFFFFFFFF)] 0x55 0b0000 0x100) 1 0x00000000 0xFFFFFFFF 0b0100 0x104 = true := by decide
/-- `DIV R1, R2, #0 (zero divisor)` -/
theorem test_divImm_2 : raises 0x412B0000
    (start [(1, 0x00000011), (2, 0x00000007)] 0x55 0b0000 0x100) (.divideByZero 0x100) = true := by decide
/-- `UDIV R1, R2, R3` -/
theorem test_udivReg_1 : leaves 0x212B0003
    (start [(2, 0xFFFFFFF9), (3, 0x00000002)] 0x55 0b0000 0x100) 1 0x7FFFFFFC 0x1 0b0000 0x104 = true := by decide
/-- `UDIV R1, R2, R3 (zero divisor)` -/
theorem test_udivReg_2 : raises 0x212B0003
    (start [(1, 0x00000011), (2, 0x00000007), (3, 0x00000000)] 0x55 0b0000 0x100) (.divideByZero 0x100) = true := by decide
/-- `UDIV R1, R2, #-1` -/
theorem test_udivImm_1 : leaves 0x712BFFFF
    (start [(2, 0xFFFFFFFF)] 0x55 0b0000 0x100) 1 0x00000001 0x0 0b0000 0x104 = true := by decide
/-- `UDIV R1, R2, #10` -/
theorem test_udivImm_2 : leaves 0x612B000A
    (start [(2, 0xFFFFFFFF)] 0x55 0b0000 0x100) 1 0x19999999 0x5 0b0000 0x104 = true := by decide
/-- `FAD R1, R2, R3` -/
theorem test_fadReg_1 : raises 0x012C0003
    (start [(1, 0x00000011), (2, 0x3F800000), (3, 0x3F800000)] 0x55 0b1010 0x100) (.unsupportedOperation 0x100) = true := by decide
/-- `FSB R1, R2, R3` -/
theorem test_fsbReg_1 : raises 0x012D0003
    (start [(1, 0x00000011), (2, 0x3F800000), (3, 0x3F800000)] 0x55 0b1010 0x100) (.unsupportedOperation 0x100) = true := by decide
/-- `FML R1, R2, R3` -/
theorem test_fmlReg_1 : raises 0x012E0003
    (start [(1, 0x00000011), (2, 0x3F800000), (3, 0x3F800000)] 0x55 0b1010 0x100) (.unsupportedOperation 0x100) = true := by decide
/-- `FDV R1, R2, R3` -/
theorem test_fdvReg_1 : raises 0x012F0003
    (start [(1, 0x00000011), (2, 0x3F800000), (3, 0x3F800000)] 0x55 0b1010 0x100) (.unsupportedOperation 0x100) = true := by decide
/-- `FAD R1, R2, #0 (IMM format)` -/
theorem test_fadImm_1 : raises 0x412C0000
    (start [(1, 0x00000011), (2, 0x00000000)] 0x0 0b0000 0x100) (.unsupportedOperation 0x100) = true := by decide
/-- `FDV (all modifier bits set)` -/
theorem test_fdvImm_1 : raises 0x7FFFFFFF
    (start [] 0x0 0b0000 0x100) (.unsupportedOperation 0x100) = true := by decide
/-- `LDW R1, R2, #4` -/
theorem test_ldw_1 : leaves 0x81200004
    { start [(2, 0x00002000)] 0x0 0b0011 0x100 with mem := image } 1 0xDEADBEEF 0x0 0b1011 0x104 = true := by decide
/-- `LDW R1, R2, #0x7FFFF (misaligned)` -/
theorem test_ldw_2 : raises 0x8127FFFF
    { start [(1, 0x00000011), (2, 0x00000000)] 0x0 0b0000 0x100 with mem := image } (.memoryFault .load 0x7FFFF 0x100) = true := by decide
/-- `LDB R1, R2, #3` -/
theorem test_ldb_1 : leaves 0x91200003
    { start [(2, 0x00002000)] 0x0 0b0000 0x100 with mem := image } 1 0x00000012 0x0 0b0000 0x104 = true := by decide
/-- `LDB R1, R2, #16 (unmapped)` -/
theorem test_ldb_2 : raises 0x91200010
    { start [(1, 0x00000011), (2, 0x00002000)] 0x0 0b0000 0x100 with mem := image } (.memoryFault .load 0x2010 0x100) = true := by decide
/-- `STW R1, R2, #0` -/
theorem test_stw_1 : stores 0xA1200000
    { start [(1, 0x00000000), (2, 0x00002000)] 0x0 0b1011 0x100 with mem := image } ((((image.write 0x2000 0x00).write 0x2001 0x00).write 0x2002 0x00).write 0x2003 0x00) = true := by decide
/-- `STW R1, R2, #6 (misaligned)` -/
theorem test_stw_2 : raises 0xA1200006
    { start [(1, 0xCAFEBABE), (2, 0x00002000)] 0x0 0b0000 0x100 with mem := image } (.memoryFault .store 0x2006 0x100) = true := by decide
/-- `STB R1, R2, #15` -/
theorem test_stb_1 : stores 0xB120000F
    { start [(1, 0x00000100), (2, 0x00002000)] 0x0 0b0000 0x100 with mem := image } (image.write 0x200F 0x00) = true := by decide
/-- `STB R1, R2, #0x1000 (unmapped)` -/
theorem test_stb_2 : raises 0xB1201000
    { start [(1, 0x000000AB), (2, 0x00002000)] 0x0 0b0000 0x100 with mem := image } (.memoryFault .store 0x3000 0x100) = true := by decide
/-- `BEQ 0x00000120` -/
theorem test_beqRel_1 : leaves 0xE1000007
    (start [] 0x0 0b0100 0x100) 0 0x00000000 0x0 0b0100 0x120 = true := by decide
/-- `BEQ 0x00000120` -/
theorem test_beqRel_2 : leaves 0xE1000007
    (start [] 0x0 0b0000 0x100) 0 0x00000000 0x0 0b0000 0x104 = true := by decide
/-- `BNE 0x00000120` -/
theorem test_bneRel_1 : leaves 0xE9000007
    (start [] 0x0 0b0100 0x100) 0 0x00000000 0x0 0b0100 0x104 = true := by decide
/-- `BNE 0x00000120` -/
theorem test_bneRel_2 : leaves 0xE9000007
    (start [] 0x0 0b0000 0x100) 0 0x00000000 0x0 0b0000 0x120 = true := by decide
/-- `B 0x000000F0` -/
theorem test_bRel_1 : leaves 0xE7FFFFFB
    (start [] 0x0 0b1010 0x100) 0 0x00000000 0x0 0b1010 0xF0 = true := by decide
/-- `B (off24 = 0x800000)` -/
theorem test_bRel_2 : leaves 0xE7800000
    (start [] 0x0 0b0000 0x100) 0 0x00000000 0x0 0b0000 0xFE000104 = true := by decide
/-- `BNV 0x00000120` -/
theorem test_bnvRel_1 : leaves 0xEF000007
    (start [] 0x0 0b1111 0x100) 0 0x00000000 0x0 0b1111 0x104 = true := by decide
/-- `BL 0x00000200` -/
theorem test_blRel_1 : leaves 0xF700003F
    (start [(15, 0x0000AAAA)] 0x0 0b1111 0x100) 15 0x00000104 0x0 0b0011 0x200 = true := by decide
/-- `BL (link value wraps to 0)` -/
theorem test_blRel_2 : leaves 0xF7000004
    (start [(15, 0x00000055)] 0x0 0b0000 0xFFFFFFFC) 15 0x00000000 0x0 0b0100 0x10 = true := by decide
/-- `BLEQ 0x00000200 (not taken)` -/
theorem test_bleqRel_1 : leaves 0xF100003F
    (start [(15, 0x0000AAAA)] 0x0 0b1000 0x100) 15 0x0000AAAA 0x0 0b1000 0x104 = true := by decide
/-- `BLEQ 0x00000200 (taken)` -/
theorem test_bleqRel_2 : leaves 0xF100003F
    (start [(15, 0x0000AAAA)] 0x0 0b1100 0x100) 15 0x00000104 0x0 0b0000 0x200 = true := by decide
/-- `B R3` -/
theorem test_bInd_1 : leaves 0xC7000003
    (start [(3, 0x00004000)] 0x0 0b0000 0x100) 3 0x00004000 0x0 0b0000 0x4000 = true := by decide
/-- `B R3 (w[23:4] set, ignored)` -/
theorem test_bInd_2 : leaves 0xC7FFFFF3
    (start [(3, 0x00004000)] 0x0 0b0000 0x100) 3 0x00004000 0x0 0b0000 0x4000 = true := by decide
/-- `BL R3` -/
theorem test_blInd_1 : leaves 0xD7000003
    (start [(3, 0x00004000), (15, 0x0000AAAA)] 0x0 0b1101 0x100) 15 0x00000104 0x0 0b0001 0x4000 = true := by decide
/-- `BL R3 (link value 0x80000000 sets N)` -/
theorem test_blInd_2 : leaves 0xD7000003
    (start [(3, 0x00000010), (15, 0x00000000)] 0x0 0b0000 0x7FFFFFFC) 15 0x80000000 0x0 0b1000 0x10 = true := by decide
/-- `BMI R3` -/
theorem test_bmiInd_1 : leaves 0xC0000003
    (start [(3, 0x00004000)] 0x0 0b0000 0x100) 3 0x00004000 0x0 0b0000 0x104 = true := by decide
/-- `BMI R3` -/
theorem test_bmiInd_2 : leaves 0xC0000003
    (start [(3, 0x00004000)] 0x0 0b1000 0x100) 3 0x00004000 0x0 0b1000 0x4000 = true := by decide
/-- `BLNV R3` -/
theorem test_blnvInd_1 : leaves 0xDF000003
    (start [(3, 0x00004000), (15, 0x00000077)] 0x0 0b0000 0x100) 15 0x00000077 0x0 0b0000 0x104 = true := by decide

/-- Where a branch word at 0x100 goes in each of the 16 states of the flags, `NZCV` = 0000 first: `1` for its target 0x120,
`0` for 0x104. -/
def takenRow (w : Word) : List Nat :=
  (List.range 16).map fun f =>
    match exec (decodeWord w) (start [] 0 (BitVec.ofNat 4 f) 0x100) with
    | .next t => if t.pc = 0x120 then 1 else if t.pc = 0x104 then 0 else 2
    | _ => 3

theorem test_taken_row_0 : takenRow 0xE0000007 = [0, 0, 0, 0, 0, 0, 0, 0, 1, 1, 1, 1, 1, 1, 1, 1] := by decide
theorem test_taken_row_1 : takenRow 0xE1000007 = [0, 0, 0, 0, 1, 1, 1, 1, 0, 0, 0, 0, 1, 1, 1, 1] := by decide
theorem test_taken_row_2 : takenRow 0xE2000007 = [0, 0, 1, 1, 0, 0, 1, 1, 0, 0, 1, 1, 0, 0, 1, 1] := by decide
theorem test_taken_row_3 : takenRow 0xE3000007 = [0, 1, 0, 1, 0, 1, 0, 1, 0, 1, 0, 1, 0, 1, 0, 1] := by decide
theorem test_taken_row_4 : takenRow 0xE4000007 = [0, 0, 1, 1, 1, 1, 1, 1, 0, 0, 1, 1, 1, 1, 1, 1] := by decide
theorem test_taken_row_5 : takenRow 0xE5000007 = [0, 1, 0, 1, 0, 1, 0, 1, 1, 0, 1, 0, 1, 0, 1, 0] := by decide
theorem test_taken_row_6 : takenRow 0xE6000007 = [0, 1, 0, 1, 1, 1, 1, 1, 1, 0, 1, 0, 1, 1, 1, 1] := by decide
theorem test_taken_row_7 : takenRow 0xE7000007 = [1, 1, 1, 1, 1, 1, 1, 1, 1, 1, 1, 1, 1, 1, 1, 1] := by decide
theorem test_taken_row_8 : takenRow 0xE8000007 = [1, 1, 1, 1, 1, 1, 1, 1, 0, 0, 0, 0, 0, 0, 0, 0] := by decide
theorem test_taken_row_9 : takenRow 0xE9000007 = [1, 1, 1, 1, 0, 0, 0, 0, 1, 1, 1, 1, 0, 0, 0, 0] := by decide
theorem test_taken_row_10 : takenRow 0xEA000007 = [1, 1, 0, 0, 1, 1, 0, 0, 1, 1, 0, 0, 1, 1, 0, 0] := by decide
theorem test_taken_row_11 : takenRow 0xEB000007 = [1, 0, 1, 0, 1, 0, 1, 0, 1, 0, 1, 0, 1, 0, 1, 0] := by decide
theorem test_taken_row_12 : takenRow 0xEC000007 = [1, 1, 0, 0, 0, 0, 0, 0, 1, 1, 0, 0, 0, 0, 0, 0] := by decide
theorem test_taken_row_13 : takenRow 0xED000007 = [1, 0, 1, 0, 1, 0, 1, 0, 0, 1, 0, 1, 0, 1, 0, 1] := by decide
theorem test_taken_row_14 : takenRow 0xEE000007 = [1, 0, 1, 0, 0, 0, 0, 0, 0, 1, 0, 1, 0, 0, 0, 0] := by decide
theorem test_taken_row_15 : takenRow 0xEF000007 = [0, 0, 0, 0, 0, 0, 0, 0, 0, 0, 0, 0, 0, 0, 0, 0] := by decide

/-! ### Steps, units and builds (95_test_vectors.md part 3; 44_unit_builder.md section 6) -/

/-- The words of a program from an address on, as a fetch mapping. -/
def program (a : Word) : List Word → Memory
  | [] => []
  | w :: ws => (program (a + 4#32) ws).writeWord a w

/-- A machine after reset at 0x100 with the words there and the data image of section 2.8. -/
def machine (ws : List Word) : State := State.launch { fetchMap := program 0x100 ws, mem := image }

/-- The next state's `x[r]`, `pc`, Builder phase and the unit it returned. -/
def seen (r : Reg) : Result State → Option (Word × Word × Phase × Option ClosedUnit)
  | .next t => some (t.reg r, t.pc, t.builder.phase, t.returned)
  | _ => none

theorem test_reset_has_no_program : signalOf (step State.reset) = some (.memoryFault .fetch 0x100 0x100) := by decide
theorem test_reset_idle : State.reset.builder.phase = .idle ∧ State.reset.I = false ∧ State.reset.pc = 0x100 := by decide
theorem test_step_opens_a_unit :
    seen 1 (step (machine [0x41002000])) = some (0x2000, 0x104, .opened, none) := by decide
theorem test_step_closes_on_a_branch :
    seen 1 (step (machine [0xE7FFFFFF])) = some (0, 0x100, .idle, some ⟨0x100, 1, .branchExit, .direct (some 0x100) none⟩) := by
  decide
theorem test_step_closes_on_the_cap :
    seen 1 (step { machine [0x41002000] with maxInsns := 1 })
      = some (0x2000, 0x104, .idle, some ⟨0x100, 1, .fallthroughCap, .fallthrough 0x104⟩) := by decide
theorem test_step_closes_on_the_page :
    seen 1 (step { machine [] with pc := 0xFFC, fetchMap := program 0xFFC [0x41002000] })
      = some (0x2000, 0x1000, .idle, some ⟨0xFFC, 1, .fallthroughCap, .fallthrough 0x1000⟩) := by decide
theorem test_step_stops_at_a_breakpoint :
    seen 1 (step { machine [0x41002000] with breakpoints := [0x100] })
      = some (0, 0x100, .idle, some ⟨0x100, 0, .breakpointHit, .terminal 0x100⟩) := by decide
theorem test_step_misaligned_fetch :
    signalOf (step { machine [0x41002000] with pc := 0x102 }) = some (.memoryFault .fetch 0x102 0x102) := by decide
theorem test_step_placed_word :
    seen 6 (step (State.reset.withFetchWord 32 0x66001234)) = some (0x12340000, 0x104, .opened, none) := by decide
/-- 20_memory.md R66: `STW R1, R2, #0` to the address of an instruction. -/
theorem test_store_to_fetch_map_refused :
    (match step ((machine [0xA1200000]).setReg 2 0x100) with
      | .refused reason => reason == .storeToFetchMapping 0x100 0x100
      | _ => false) = true := by decide
/-- 41_regop_arith.md R155: the alternative value of DIV_OVERFLOW. -/
theorem test_divide_overflow_wraps :
    leaves 0x012B0003 { start [(2, 0x80000000), (3, 0xFFFFFFFF)] 5 0 0x100 with cfg := { divOverflow := .wrap } }
      1 0x80000000 0 0b1000 0x104 = true := by decide
/-- 43_branch_ops.md R196: the other value of LINK_WRITE_WHEN_NOT_TAKEN. -/
theorem test_link_write_when_not_taken :
    leaves 0xF100003F { start [(15, 0xAAAA)] 0 0b1000 0x100 with cfg := { linkWriteWhenNotTaken := true } }
      15 0x104 0 0b0000 0x104 = true := by decide
theorem test_dump_flags : (start [] 7 0b1001 0x100).dump.flags = [0, 1, 1, 0, 0]
    ∧ (start [] 7 0b1001 0x100).dump.slots = [7, 0x100] := by decide

/-- The unit or the error of an invocation of the Builder. -/
def built (s : State) (a : Word) (cap : Nat) : (Nat × ExitDescriptor × CloseReason) ⊕ Fault :=
  match build s a cap with
  | .unit u reason => .inl (u.n, u.exit, reason)
  | .error signal => .inr signal

/-- The six words of 44_unit_builder.md section 6, a MOV for each instruction that is no branch. -/
def sixFetch : Memory :=
  program 0xFF0 [0x41000001, 0x41000001, 0xE1FFFFFD, 0x41000001, 0x41000001, 0xC700000F]

def sixWords : State := { machine [] with fetchMap := sixFetch }

theorem test_build_branch :
    built sixWords 0xFF0 512 = .inl (3, .direct (some 0xFF0) (some 0xFFC), .branchExit) := by decide
theorem test_build_page : built sixWords 0xFFC 512 = .inl (1, .fallthrough 0x1000, .fallthroughCap) := by decide
theorem test_build_return : built sixWords 0x1000 512 = .inl (2, .indirect none, .branchExit) := by decide
theorem test_build_branch_beats_cap :
    built sixWords 0xFF0 3 = .inl (3, .direct (some 0xFF0) (some 0xFFC), .branchExit) := by decide
theorem test_build_breakpoint :
    built { sixWords with breakpoints := [0xFF4] } 0xFF0 512 = .inl (1, .terminal 0xFF4, .breakpointHit) := by decide
theorem test_build_placeholder :
    built { sixWords with fetchMap := sixWords.fetchMap.writeWord 0xFF4 0x000C0000 } 0xFF0 512
      = .inr (.unsupportedOperation 0xFF4) := by decide
theorem test_build_misaligned : built sixWords 0xFF2 512 = .inr (.memoryFault .fetch 0xFF2 0xFF2) := by decide

/-! ### Witnesses: for each statement with hypotheses, a case that meets them all -/

/-- A state for the register class: `x[2]` = 7, `x[3]` = 2, all else 0. -/
def regs73 : State := start [(2, 7), (3, 2)] 0 0 0x100

/-- A state for the memory class: `x[1]` = 0xDEADBEEF, `x[2]` = 0x2000, the data image, a program elsewhere. -/
def memState : State := { start [(1, 0xDEADBEEF), (2, 0x2000)] 0 0 0x100 with mem := image, fetchMap := program 0x100 [0x41000001] }

theorem test_witness_EveryWordMatchesExactlyOneRow :
    (0x01000002 : Word) &&& (Instr.movReg 1 2).row.mask = (Instr.movReg 1 2).row.pattern := by decide

theorem test_witness_ResetSatisfiesTheInvariant : ({ resetPc := 0x200, maxInsns := 1, mem := image } : Launch).wf = true := by
  decide

theorem machine_inv (ws : List Word) (h : (program 0x100 ws).wf = true) : Inv (machine ws) :=
  ⟨(by decide : image.wf = true), h, rfl, (by decide : 1 ≤ 512), nofun⟩

/-- From an idle machine a MOV leaves a unit open. -/
theorem test_witness_StepKeepsTheInvariant :
    Inv (machine [0x41002000]) ∧ ∃ t, step (machine [0x41002000]) = .next t ∧ t.builder.phase = .opened :=
  ⟨machine_inv _ (by decide), _, rfl, by decide⟩

theorem test_witness_StepKeepsThePlatform :
    ∃ t, step ((machine [0xA1200008]).setReg 2 0x2000) = .next t ∧ t.pc = 0x104 := ⟨_, rfl, by decide⟩

theorem test_witness_StepRunsTheDecodedInstruction :
    let s := machine [0x41002000]
    s.pc.toNat % 4 = 0 ∧ s.breakpointAt s.pc = false ∧ s.fetchMap.get s.pc = some 0x00
      ∧ s.fetchMap.get (s.pc + 1#32) = some 0x20 ∧ s.fetchMap.get (s.pc + 2#32) = some 0x00
      ∧ s.fetchMap.get (s.pc + 3#32) = some 0x41 ∧ decode [0x00, 0x20, 0x00, 0x41] = .ok (.movImm 1 false 0x2000, []) := by
  decide

/-- The same with a unit already open, one instruction in. -/
theorem test_witness_StepStopsAtABreakpoint :
    let s := { machine [0x41002000] with breakpoints := [0x100] }
    let s' := { s with builder := ⟨.opened, 0xFC, 0x100, 1, 4, none⟩ }
    s.breakpointAt s.pc = true ∧ s.builder.phase ≠ .opened
      ∧ s'.breakpointAt s'.pc = true ∧ s'.builder.phase = .opened ∧ s'.builder.cur = s'.pc := by decide

/-- Each of the two causes, and neither: the last byte of the word is missing. -/
theorem test_witness_FetchFaultsExactlyWhere :
    (machine []).breakpointAt 0x100 = false ∧ (machine [0x41002000]).fetchMap.get 0x103 = some 0x41
      ∧ ({ machine [0x41002000] with pc := 0x101 } : State).pc.toNat % 4 ≠ 0
      ∧ Memory.get [(0x100, 1), (0x101, 1), (0x102, 1)] (0x100 + BitVec.ofNat 32 3) = none := by decide

theorem test_witness_MovFlagsPacksNZCV : State.reset.cfg.flagpackShift = 0 := by decide

theorem test_witness_ShiftsAndRotateByFiveBits :
    (2 : Word) = regs73.reg 3 ∧ (0xFFFFFFFF : Word) = BitVec.ofInt 32 (immNumber true 0xFFFF) := by decide

theorem test_witness_LogicOperationsBitByBit :
    (2 : Word) = regs73.reg 3 ∧ (0xFFFF : Word) = BitVec.ofInt 32 (immNumber false 0xFFFF) := by decide

/-- The divisors nearest the excluded ones: 2 by register, -1 with a dividend that is not -2^31. -/
theorem test_witness_DivideTruncatesTowardZero :
    ((2 : Word) ≠ 0 ∧ 2 = regs73.reg 3 ∧ ¬(regs73.reg 2 = 0x80000000 ∧ (2 : Word) = 0xFFFFFFFF))
    ∧ ((0xFFFFFFFF : Word) ≠ 0 ∧ 0xFFFFFFFF = BitVec.ofInt 32 (immNumber true 0xFFFF)
      ∧ ¬(regs73.reg 2 = 0x80000000 ∧ (0xFFFFFFFF : Word) = 0xFFFFFFFF)) := by decide

theorem test_witness_DivideByZeroRaises : regs73.reg 4 = 0 := by decide

theorem test_witness_DivideOverflowFollowsTheParameter :
    let s := start [(2, 0x80000000), (3, 0xFFFFFFFF)] 0 0 0x100
    s.reg 2 = 0x80000000 ∧ s.reg 3 = 0xFFFFFFFF ∧ s.cfg.divOverflow = .trap
      ∧ ({ s with cfg := { divOverflow := .wrap } } : State).cfg.divOverflow = .wrap := by decide

theorem test_witness_FloatingPointRaisesUnsupported :
    bit 0x000C0000 31 = false ∧ 12 ≤ (field 0x000C0000 16 4).toNat
      ∧ bit 0x7FFFFFFF 31 = false ∧ 12 ≤ (field 0x7FFFFFFF 16 4).toNat := by decide

/-- A move, a multiply (H changes) and an add (C changes). -/
theorem test_witness_RegisterClassFrame :
    (bit 0x01000002 31 = false ∧ ∃ t, exec (decodeWord 0x01000002) regs73 = .next t)
    ∧ (∃ t, exec (decodeWord 0x512AFFFE) regs73 = .next t ∧ t.H ≠ regs73.H)
    ∧ (∃ t, exec (decodeWord 0x5128FFFF) regs73 = .next t ∧ t.C ≠ regs73.C)
    ∧ Builder.invoke {} 0x100 2 = ⟨.opened, 0x100, 0x100, 0, 2, none⟩ :=
  ⟨⟨by decide, _, rfl⟩, ⟨_, rfl, by decide⟩, ⟨_, rfl, by decide⟩, by decide⟩

theorem test_witness_ZeroAndNegativeFromTheDestination :
    bit 0x212B0003 31 = false ∧ ∃ t, exec (decodeWord 0x212B0003) regs73 = .next t ∧ t.reg 1 = 3 :=
  ⟨by decide, _, rfl, by decide⟩

/-- Both sides of the one corner of ADC and SBC. -/
theorem test_witness_AddFlagsAreTrueCarryAndOverflow :
    let s := start [(2, 5), (3, 0xFFFFFFFF)] 0 0b0010 0x100
    (s.C = true ∧ (0xFFFFFFFF : Word) = s.reg 3 ∧ (0xFFFFFFFF : Word) = BitVec.ofInt 32 (immNumber true 0xFFFF))
      ∧ (5 : Word) = s.reg 2 ∧ (5 : Word) = BitVec.ofInt 32 (immNumber false 5) := by decide

theorem test_witness_SubFlagsAreTrueBorrowAndOverflow :
    let s := start [(2, 5), (3, 0xFFFFFFFF)] 0 0b0010 0x100
    (s.C = true ∧ (0xFFFFFFFF : Word) = s.reg 3 ∧ (0xFFFFFFFF : Word) = BitVec.ofInt 32 (immNumber true 0xFFFF))
      ∧ (5 : Word) = s.reg 2 ∧ (5 : Word) = BitVec.ofInt 32 (immNumber false 5) := by decide

theorem test_witness_CarryChainsAddSixtyFourBits : (4 : Reg) ≠ 5 ∧ (4 : Reg) ≠ 3 ∧ (4 : Reg) ≠ 2 := by decide

theorem test_witness_HighRegisterIsWrittenAndReadOnlyAsListed :
    (∃ t, exec (.mulImm 1 2 true 0xFFFE) regs73 = .next t ∧ t.H ≠ regs73.H)
    ∧ (∃ a b c v imm, (Instr.mulImm 1 2 true 0xFFFE) = .mulReg a b c ∨ (Instr.mulImm 1 2 true 0xFFFE) = .mulImm a b v imm)
    ∧ ∀ a, Instr.addReg 1 2 3 ≠ .movH a :=
  ⟨⟨_, rfl, by decide⟩, ⟨1, 2, 0, true, 0xFFFE, .inr rfl⟩, nofun⟩

theorem test_witness_LoadWordReadsLittleEndian :
    (memState.ea 2 4).toNat % 4 = 0 ∧ memState.mem.get (memState.ea 2 4) = some 0xEF
      ∧ memState.mem.get (memState.ea 2 4 + 1#32) = some 0xBE ∧ memState.mem.get (memState.ea 2 4 + 2#32) = some 0xAD
      ∧ memState.mem.get (memState.ea 2 4 + 3#32) = some 0xDE := by decide

/-- An odd address, the last mapped byte. -/
theorem test_witness_LoadByteZeroExtends : memState.mem.get (memState.ea 2 15) = some 0x7F := by decide

/-- The last word of the image. -/
theorem test_witness_StoreWordWritesFourBytes :
    (memState.ea 2 12).toNat % 4 = 0 ∧ ∀ k < 4, (memState.mem.get (memState.ea 2 12 + BitVec.ofNat 32 k)).isSome = true
      ∧ memState.fetchMap.get (memState.ea 2 12 + BitVec.ofNat 32 k) = none := by decide

theorem test_witness_StoreByteWritesOneByte :
    (memState.mem.get (memState.ea 2 15)).isSome = true ∧ memState.fetchMap.get (memState.ea 2 15) = none := by decide

/-- Misaligned; the first unmapped word; and one address that is neither. -/
theorem test_witness_LoadsFaultExactlyWhere :
    (memState.ea 2 1).toNat % 4 ≠ 0 ∧ memState.mem.get (memState.ea 2 16 + BitVec.ofNat 32 0) = none
      ∧ (memState.ea 2 12).toNat % 4 = 0 ∧ ∀ k < 4, memState.mem.get (memState.ea 2 12 + BitVec.ofNat 32 k) ≠ none := by
  decide

/-- Each side: misaligned; aligned onto the program; aligned off it and unmapped; off it and mapped; the last three for a
byte too. -/
theorem test_witness_StoresStopExactlyWhere :
    (memState.ea 2 2).toNat % 4 ≠ 0
    ∧ (let s := memState.setReg 2 0x100
       (s.ea 2 0).toNat % 4 = 0 ∧ s.fetchMap.get (s.ea 2 0 + BitVec.ofNat 32 3) ≠ none
        ∧ s.fetchMap.get (s.ea 2 3) ≠ none)
    ∧ ((memState.ea 2 16).toNat % 4 = 0
        ∧ (∀ k < 4, memState.fetchMap.get (memState.ea 2 16 + BitVec.ofNat 32 k) = none)
        ∧ (∃ k < 4, memState.mem.get (memState.ea 2 16 + BitVec.ofNat 32 k) = none)
        ∧ memState.mem.get (memState.ea 2 16) = none)
    ∧ ((memState.ea 2 12).toNat % 4 = 0
        ∧ (∀ k < 4, memState.fetchMap.get (memState.ea 2 12 + BitVec.ofNat 32 k) = none)
        ∧ ∀ k < 4, memState.mem.get (memState.ea 2 12 + BitVec.ofNat 32 k) ≠ none) := by decide

/-- A word of each of the four forms that completes, a fault and a refusal. -/
theorem test_witness_MemoryClassUsesOneEffectiveAddress :
    [0x81200000, 0x91200003, 0xA1200008, 0xB1200009].all (fun w => bit w 31 && !bit w 30
      && (match exec (decodeWord w) memState with | .next _ => true | _ => false)) = true
    ∧ raises 0x81200002 memState (.memoryFault .load 0x2002 0x100) = true
    ∧ (match exec (decodeWord 0xB1200000) (memState.setReg 2 0x100) with
        | .refused reason => reason == .storeToFetchMapping 0x100 0x100
        | _ => false) = true := by decide

theorem test_witness_LoadReturnsTheLatestStore :
    (∃ t, exec (.stw 1 2 8) memState = .next t ∧ t.ea 2 8 = memState.ea 2 8
      ∧ t.ea 2 11 = memState.ea 2 8 + BitVec.ofNat 32 3)
    ∧ ∃ t, exec (.stb 1 2 9) memState = .next t ∧ t.ea 2 9 = memState.ea 2 9 :=
  ⟨⟨_, rfl, by decide, by decide⟩, _, rfl, by decide⟩

/-- Every signal is raised, and the refusal given. -/
theorem test_witness_OnlyTheListedSignals :
    raises 0x012C0003 regs73 (.unsupportedOperation 0x100) = true ∧ raises 0x412B0000 regs73 (.divideByZero 0x100) = true
    ∧ raises 0x512BFFFF (start [(2, 0x80000000)] 0 0 0x100) (.divideOverflow 0x100) = true
    ∧ raises 0x91200010 memState (.memoryFault .load 0x2010 0x100) = true
    ∧ raises 0xB1200010 memState (.memoryFault .store 0x2010 0x100) = true
    ∧ (match exec (.stb 1 2 0) (memState.setReg 2 0x103) with
        | .refused reason => reason == .storeToFetchMapping 0x103 0x100
        | _ => false) = true := by decide

theorem test_witness_IndirectBranchesComplete : (Instr.blgtInd 3, true, 14) ∈ indirectForms 3 := by decide

theorem test_witness_RelativeBranchesComplete : (Instr.bmiRel 7, false, 0) ∈ relativeForms 7 := by decide

theorem test_witness_BranchTakenByTheWorkingBit : isBranchWord 0xC0000000 = true ∧ isBranchWord 0xFFFFFFFF = true := by
  decide

/-- A misaligned target: the branch completes, the next step faults. -/
theorem test_witness_BranchRaisesNoSignal :
    isBranchWord 0xC7000003 = true ∧ ∃ t, exec (decodeWord 0xC7000003) (start [(3, 0x4002)] 0 0 0x100) = .next t
      ∧ t.pc.toNat % 4 ≠ 0 ∧ t.breakpointAt t.pc = false := ⟨by decide, _, rfl, by decide, by decide⟩

theorem test_witness_BranchFrameAndBlindness :
    isBranchWord 0xD700000F = true ∧ ∃ t, exec (decodeWord 0xD700000F) regs73 = .next t ∧ t.reg 15 = 0x104 :=
  ⟨by decide, _, rfl, by decide⟩

/-- An aligned step, and one that a register-indirect branch leaves misaligned. -/
theorem test_witness_PcStaysAligned :
    (∃ t, step (machine [0x41002000]) = .next t ∧ (machine [0x41002000]).pc.toNat % 4 = 0)
    ∧ ∃ t, step ((machine [0xC7000003]).setReg 3 0x4002) = .next t ∧ t.pc.toNat % 4 ≠ 0 :=
  ⟨⟨_, rfl, by decide⟩, _, rfl, by decide⟩

/-- The word at `pc`, no breakpoint there, and the phase a step leaves: each of the three clauses. -/
theorem test_witness_UnitClosesOnBranchOrCap :
    let open1 := machine [0x41002000]
    let capped := { machine [0x41002000] with maxInsns := 1 }
    let branch := { machine [0xE7FFFFFF] with maxInsns := 1 }
    (open1.fetch open1.pc = some 0x41002000 ∧ open1.breakpointAt open1.pc = false ∧ isBranchWord 0x41002000 = false
      ∧ open1.openUnit.builder.n + 1 < open1.openUnit.builder.max ∧ ∃ t, step open1 = .next t)
    ∧ (capped.openUnit.builder.max ≤ capped.openUnit.builder.n + 1 ∧ ∃ t, step capped = .next t)
    ∧ (branch.fetch branch.pc = some 0xE7FFFFFF ∧ isBranchWord 0xE7FFFFFF = true ∧ ∃ t, step branch = .next t) :=
  ⟨⟨by decide, by decide, by decide, by decide, _, rfl⟩, ⟨by decide, _, rfl⟩, by decide, by decide, _, rfl⟩

/-- A word for each clause: cc 15, pc-relative with cc 7 and with another, register-indirect with cc 7 and with another. -/
theorem test_witness_ExitDescriptorOfABranch :
    [0xEF000007, 0xDF000003, 0xE7000007, 0xE1000007, 0xC7000003, 0xD0000003].all (fun w => isBranchWord w
      && (machine [w]).fetch 0x100 == some w && !(machine [w]).breakpointAt 0x100 && (machine [w]).builder.phase == .idle
      && (match step (machine [w]) with | .next _ => true | _ => false)) = true := by decide

theorem test_witness_EmittedOperationsPerformTheInstruction :
    (∃ ops, emit {} 0x100 (.ldw 1 2 0) = .ok ops) ∧ emit {} 0x100 .fadReg = .error (.unsupportedOperation 0x100) :=
  ⟨⟨_, rfl⟩, by decide⟩

theorem test_witness_OneTransferAndAtMostOneAccess :
    (∃ ops, emit {} 0x100 (.stb 1 2 0) = .ok ops) ∧ ∃ ops, emit {} 0x100 (.blRel 0) = .ok ops := ⟨⟨_, rfl⟩, _, rfl⟩

/-- Two states that differ in a register, in data memory, in a word off the page, and in bits that `MOV R1, R2` ignores. -/
theorem test_witness_BuildingIsRepeatable :
    let s := { machine [] with fetchMap := program 0xFFC [0x01000002, 0x41000001], cfg := { pageSlotBits := 0 } }
    let s' := { s with fetchMap := program 0xFFC [0x01F0FFF2], mem := [] }.setReg 5 9
    s.fetchMap ≠ s'.fetchMap ∧ s.mem ≠ s'.mem ∧ s.cfg = s'.cfg
      ∧ ∀ k < 3, 4 * k < s.cfg.pageSize - (0xFFC : Word).toNat % s.cfg.pageSize →
          (s.fetch (0xFFC + BitVec.ofNat 32 (4 * k))).map decodeWord
              = (s'.fetch (0xFFC + BitVec.ofNat 32 (4 * k))).map decodeWord
            ∧ s.breakpointAt (0xFFC + BitVec.ofNat 32 (4 * k)) = s'.breakpointAt (0xFFC + BitVec.ofNat 32 (4 * k)) := by
  decide

/-- The smallest cap, with a unit and with an error as the answer. -/
theorem test_witness_BuiltUnitsKeepTheUnitRules :
    1 ≤ 1 ∧ built sixWords 0xFF0 1 = .inl (1, .fallthrough 0xFF4, .fallthroughCap)
      ∧ built sixWords 0x1008 1 = .inr (.memoryFault .fetch 0x1008 0x1008) := by decide

theorem test_witness_RunningAUnitIsSteppingThroughIt :
    ∃ u reason, build (machine [0x41002000, 0xE7FFFFFE]) 0x100 512 = .unit u reason ∧ u.n = 2 := ⟨_, _, rfl, by decide⟩

/-- Two states that differ in the cap, the page size, the Builder and its output. -/
theorem test_witness_UnitBoundariesAreInvisible :
    let s := machine [0x41002000]
    let s1 := { s with maxInsns := 1, cfg := { pageSlotBits := 0 }, builder := ⟨.opened, 0xFC, 0x100, 1, 4, none⟩ }
    let s' := s1.setReturned (some ⟨0, 0, .breakpointHit, .terminal 0⟩)
    s ≠ s' ∧ s.forgetUnits = s'.forgetUnits := by decide

/-- A step that leaves the unit open, and one that returns it. -/
theorem test_witness_ClosedUnitIsReturnedAndTheBuilderIsIdle :
    (∃ t, step (machine [0x41002000]) = .next t ∧ t.builder.phase = .opened ∧ t.returned = none)
    ∧ (∃ t, step (machine [0xE7FFFFFF]) = .next t ∧ t.builder.phase = .idle ∧ t.returned ≠ none)
    ∧ ((machine []).setBuilder ⟨.closed .branchExit, 0x100, 0x100, 1, 4, some (.indirect none)⟩).builder.phase
        = .closed .branchExit :=
  ⟨⟨_, rfl, by decide, by decide⟩, ⟨_, rfl, by decide, by decide⟩, rfl⟩

end Sys2Proof.Tests
end

section
/-! PROOFS. Reset (10_state.md R40; 70_reset_and_hazards.md R300, R301): the fields of a launched state, and the invariant
there. -/

namespace Sys2Proof.Machine

/-! ### The state after reset, field by field -/

@[simp] theorem State.launch_pc (l : Launch) : (State.launch l).pc = l.resetPc := rfl
@[simp] theorem State.launch_I (l : Launch) : (State.launch l).I = false := rfl
@[simp] theorem State.launch_builder (l : Launch) : (State.launch l).builder = Builder.idle := rfl
@[simp] theorem State.launch_returned (l : Launch) : (State.launch l).returned = none := rfl
@[simp] theorem State.launch_mem (l : Launch) : (State.launch l).mem = l.mem := rfl
@[simp] theorem State.launch_fetchMap (l : Launch) : (State.launch l).fetchMap = l.fetchMap := rfl
@[simp] theorem State.launch_breakpoints (l : Launch) : (State.launch l).breakpoints = l.breakpoints := rfl
@[simp] theorem State.launch_maxInsns (l : Launch) : (State.launch l).maxInsns = l.maxInsns := rfl
@[simp] theorem State.launch_cfg (l : Launch) : (State.launch l).cfg = l.cfg := rfl

@[simp] theorem Builder.idle_phase : Builder.idle.phase = .idle := rfl

/-- Settles O6, field by field. -/
theorem resetLeavesTheSpecifiedState : Obligations.ResetLeavesTheSpecifiedState := fun l =>
  ⟨State.launch_pc l, State.launch_I l, congrArg Builder.phase (State.launch_builder l), State.launch_mem l,
    State.launch_fetchMap l, State.launch_breakpoints l, State.launch_maxInsns l, State.launch_cfg l⟩

/-! ### The invariant at reset -/

/-- An idle Builder that has returned nothing keeps every unit rule: there is no unit to speak of. -/
theorem builderInv_of_idle {s : State} (hphase : s.builder.phase = .idle) (hret : s.returned = none) : BuilderInv s := by
  simp [BuilderInv, hphase, hret]

/-- What the contract of a launch asks for (00_scope.md R7). -/
theorem launch_wf_iff {l : Launch} :
    l.wf = true ↔ l.resetPcAligned = true ∧ 1 ≤ l.maxInsns ∧ cellsWf l.fetchMap = true ∧ cellsWf l.mem = true := by
  simp [Launch.wf, Launch.capAtLeastOne, and_assoc]

/-- The invariant holds after a launch inside its contract: the memories and the cap are the launch's. -/
theorem inv_launch {l : Launch} (hl : l.wf = true) : Inv (State.launch l) := by
  obtain ⟨-, hcap, hfetch, hmem⟩ := launch_wf_iff.mp hl
  exact ⟨hmem, hfetch, State.launch_I l, hcap, builderInv_of_idle Builder.idle_phase (State.launch_returned l)⟩

/-- Settles O7: `State.reset` is the launch with the default parameters, which is inside the contract. -/
theorem resetSatisfiesTheInvariant : Obligations.ResetSatisfiesTheInvariant :=
  ⟨fun _ hl => inv_launch hl, inv_launch (by decide)⟩

end Sys2Proof.Machine
end

section
/-! PROOFS. The high register `H` (10_state.md R23): which operations read it and which write it. -/

namespace Sys2Proof.Machine

@[simp] theorem mapNext_next {σ τ : Type} (f : σ → τ) (s : σ) : mapNext f (.next s : Result σ) = .next (f s) := rfl

@[simp] theorem State.setH_self (s : State) : s.setH s.H = s := rfl

/-! ### The shared operations in a state with another `H`

MUL, UMUL, DIV and UDIV overwrite it; every other operation carries it along. -/

theorem mulOp_setH (uns : Bool) (a b : Reg) (cv : Word) (s : State) (h : Word) :
    mulOp uns a b cv (s.setH h) = mulOp uns a b cv s := rfl

theorem divOp_setH (uns : Bool) (a b : Reg) (cv : Word) (s : State) (h : Word) :
    divOp uns a b cv (s.setH h) = divOp uns a b cv s := rfl

theorem moveOp_setH (a : Reg) (d : Word) (s : State) (h : Word) :
    moveOp a d (s.setH h) = mapNext (fun t => t.setH h) (moveOp a d s) := rfl

theorem aluOp_setH (f : Word → Word → Word) (a b : Reg) (cv : Word) (s : State) (h : Word) :
    aluOp f a b cv (s.setH h) = mapNext (fun t => t.setH h) (aluOp f a b cv s) := rfl

theorem addOp_setH (cin : Bool) (a b : Reg) (cv : Word) (s : State) (h : Word) :
    addOp cin a b cv (s.setH h) = mapNext (fun t => t.setH h) (addOp cin a b cv s) := rfl

theorem subOp_setH (cin : Bool) (a b : Reg) (cv : Word) (s : State) (h : Word) :
    subOp cin a b cv (s.setH h) = mapNext (fun t => t.setH h) (subOp cin a b cv s) := rfl

theorem floatOp_setH (s : State) (h : Word) :
    floatOp (s.setH h) = mapNext (fun t => t.setH h) (floatOp s) := rfl

theorem loadOp_setH (value : Option Word) (a : Reg) (ea : Word) (s : State) (h : Word) :
    loadOp value a ea (s.setH h) = mapNext (fun t => t.setH h) (loadOp value a ea s) := by
  cases value <;> rfl

theorem storeOp_setH (written : Result Memory) (s : State) (h : Word) :
    storeOp written (s.setH h) = mapNext (fun t => t.setH h) (storeOp written s) := by
  cases written <;> rfl

theorem branchOp_setH (link : Bool) (cc : Cond) (target : Word) (s : State) (h : Word) :
    branchOp link cc target (s.setH h) = mapNext (fun t => t.setH h) (branchOp link cc target s) := by
  have htaken : (s.setH h).taken cc = s.taken cc := rfl
  simp only [branchOp_eq, htaken, State.setH_cfg]
  split <;> rfl

/-! ### The instructions -/

/-- The instructions that 10_state.md R23 lets write `H`, in both formats. -/
def MultiplyOrDivide (i : Instr) : Prop :=
  ∃ a b c v imm, i = .mulReg a b c ∨ i = .mulImm a b v imm ∨ i = .umulReg a b c ∨ i = .umulImm a b v imm
    ∨ i = .divReg a b c ∨ i = .divImm a b v imm ∨ i = .udivReg a b c ∨ i = .udivImm a b v imm

/-- A multiply or divide does not see `H`, and its outcome does not keep it. -/
theorem exec_setH_of_multiplyOrDivide {i : Instr} (hi : MultiplyOrDivide i) (s : State) (h : Word) :
    exec i (s.setH h) = exec i s := by
  obtain ⟨a, b, c, v, imm, rfl | rfl | rfl | rfl | rfl | rfl | rfl | rfl⟩ := hi
  · exact mulOp_setH false a b (s.reg c) s h
  · exact mulOp_setH false a b (immValue v imm) s h
  · exact mulOp_setH true a b (s.reg c) s h
  · exact mulOp_setH true a b (immValue v imm) s h
  · exact divOp_setH false a b (s.reg c) s h
  · exact divOp_setH false a b (immValue v imm) s h
  · exact divOp_setH true a b (s.reg c) s h
  · exact divOp_setH true a b (immValue v imm) s h

/-- Every instruction but these and `MOV Ra, H` is blind to `H`: the case split follows the shared operations, and the
constructors it does not name are the branches. -/
theorem exec_setH {i : Instr} (hi : ¬MultiplyOrDivide i) (hmov : ∀ a, i ≠ .movH a) (s : State) (h : Word) :
    exec i (s.setH h) = mapNext (fun t => t.setH h) (exec i s) := by
  cases i with
  | movH a => exact absurd rfl (hmov a)
  | mulReg | mulImm | umulReg | umulImm | divReg | divImm | udivReg | udivImm =>
    exact absurd (by simp [MultiplyOrDivide]) hi
  | movReg | movFlags | movImm | movhi => exact moveOp_setH _ _ s h
  | lslReg | lslImm | asrReg | asrImm | rorReg | rorImm | andReg | andImm | annReg | annImm | iorReg | iorImm | xorReg
  | xorImm => exact aluOp_setH _ _ _ _ s h
  | addReg | addImm | adcReg | adcImm => exact addOp_setH _ _ _ _ s h
  | subReg | subImm | sbcReg | sbcImm => exact subOp_setH _ _ _ _ s h
  | fadReg | fadImm | fsbReg | fsbImm | fmlReg | fmlImm | fdvReg | fdvImm => exact floatOp_setH s h
  | ldw | ldb => exact loadOp_setH _ _ _ s h
  | stw | stb => exact storeOp_setH _ s h
  | _ => exact branchOp_setH _ _ _ s h

/-- `MOV Ra, H` reads `H` and leaves it as it was. -/
theorem exec_movH_H {a : Reg} {s t : State} (ht : exec (.movH a) s = .next t) : t.H = s.H := by
  obtain rfl := moveOp_eq_next.mp ht
  rfl

/-- An instruction that is blind to `H` does not write it: run with `H` replaced by itself, it answers the state with the
old `H`. -/
theorem exec_H_of_not_multiplyOrDivide {i : Instr} (hi : ¬MultiplyOrDivide i) {s t : State}
    (ht : exec i s = .next t) : t.H = s.H := by
  by_cases hmov : ∃ a, i = .movH a
  · obtain ⟨a, rfl⟩ := hmov
    exact exec_movH_H ht
  · have hblind := exec_setH hi (fun a e => hmov ⟨a, e⟩) s s.H
    rw [State.setH_self, ht, mapNext_next, Host.Outcome.next.injEq] at hblind
    rw [hblind, State.setH_H]

/-- Settles O31: blindness to `H` for every other instruction gives its frame as well. -/
theorem highRegisterIsWrittenAndReadOnlyAsListed : Obligations.HighRegisterIsWrittenAndReadOnlyAsListed :=
  fun i s h =>
    ⟨fun _ ht hne => not_not.mp fun hi : ¬MultiplyOrDivide i => hne (exec_H_of_not_multiplyOrDivide hi ht),
      fun hi => exec_setH_of_multiplyOrDivide hi s h,
      fun hi hmov => exec_setH hi hmov s h⟩

end Sys2Proof.Machine
end

section
/-! PROOFS. The platform of a run (20_memory.md R61, R66; 00_scope.md R7): what no step changes, whatever it executes. -/

namespace Sys2Proof.Machine

/-! ### Opening a unit changes nothing but the Builder and its output -/

@[simp] theorem openUnit_pc (s : State) : s.openUnit.pc = s.pc := by
  obtain ⟨_, h⟩ := openUnit_eq s; rw [h]; rfl
@[simp] theorem openUnit_I (s : State) : s.openUnit.I = s.I := by
  obtain ⟨_, h⟩ := openUnit_eq s; rw [h]; rfl
@[simp] theorem openUnit_mem (s : State) : s.openUnit.mem = s.mem := by
  obtain ⟨_, h⟩ := openUnit_eq s; rw [h]; rfl
@[simp] theorem openUnit_fetchMap (s : State) : s.openUnit.fetchMap = s.fetchMap := by
  obtain ⟨_, h⟩ := openUnit_eq s; rw [h]; rfl
@[simp] theorem openUnit_breakpoints (s : State) : s.openUnit.breakpoints = s.breakpoints := by
  obtain ⟨_, h⟩ := openUnit_eq s; rw [h]; rfl
@[simp] theorem openUnit_maxInsns (s : State) : s.openUnit.maxInsns = s.maxInsns := by
  obtain ⟨_, h⟩ := openUnit_eq s; rw [h]; rfl
@[simp] theorem openUnit_cfg (s : State) : s.openUnit.cfg = s.cfg := by
  obtain ⟨_, h⟩ := openUnit_eq s; rw [h]; rfl
@[simp] theorem openUnit_reg (s : State) (r : Reg) : s.openUnit.reg r = s.reg r := by
  obtain ⟨_, h⟩ := openUnit_eq s; rw [h]; rfl
@[simp] theorem openUnit_fetch (s : State) (a : Word) : s.openUnit.fetch a = s.fetch a := by
  simp only [State.fetch, openUnit_fetchMap]
@[simp] theorem openUnit_breakpointAt (s : State) (a : Word) : s.openUnit.breakpointAt a = s.breakpointAt a := by
  simp only [State.breakpointAt, openUnit_breakpoints]
@[simp] theorem openUnit_next (s : State) : s.openUnit.next = s.next := by
  simp only [State.next, openUnit_pc]
@[simp] theorem openUnit_relTarget (s : State) (off : BitVec 24) : s.openUnit.relTarget off = s.relTarget off := by
  simp only [State.relTarget, openUnit_next]

/-! ### The writes that complete -/

/-- When a word write completes, and the memory it leaves (20_memory.md R54, R56, R61, R66). -/
theorem memWriteWord_eq_next {s : State} {ea w : Word} {m : Memory} :
    s.memWriteWord ea w = .next m ↔
      aligned ea = true ∧ s.fetchMap.overlapsWord ea = false ∧ s.mem.mappedWord ea = true
        ∧ m = s.mem.writeWord ea w := by
  rcases memWriteWord_cases s ea w with ⟨h, e⟩ | ⟨_, h, e⟩ | ⟨_, _, h, e⟩ | ⟨h1, h2, h3, e⟩ <;> rw [e]
  · simp [h]
  · simp [h]
  · simp [h]
  · simp [h1, h2, h3, eq_comm]

/-- When a byte write completes, and the memory it leaves (20_memory.md R56, R61, R66). -/
theorem memWriteByte_eq_next {s : State} {ea : Word} {b : Byte} {m : Memory} :
    s.memWriteByte ea b = .next m ↔
      s.fetchMap.mapped ea = false ∧ s.mem.mapped ea = true ∧ m = s.mem.set ea b := by
  rcases memWriteByte_cases s ea b with ⟨h, e⟩ | ⟨_, h, e⟩ | ⟨h1, h2, e⟩ <;> rw [e]
  · simp [h]
  · simp [h]
  · simp [h1, h2, eq_comm]

/-! ### The states an instruction can leave -/

/-- The state after any instruction that completes: a destination write, perhaps with `H` or `C` and `V`; a word or a byte
stored where memory is mapped; or a jump, perhaps with the link. -/
theorem exec_next_cases {i : Instr} {s t : State} (h : exec i s = .next t) :
    (∃ a d hi c v, t = ((s.finish a d).setH hi).setCV c v)
    ∨ (∃ ea w, s.mem.mappedWord ea = true ∧ t = (s.setMem (s.mem.writeWord ea w)).setPc s.next)
    ∨ (∃ ea b, s.mem.mapped ea = true ∧ t = (s.setMem (s.mem.set ea b)).setPc s.next)
    ∨ ∃ a, t = s.setPc a ∨ t = s.writeLink.setPc a := by
  rcases exec_cases i s with ⟨_, _, e⟩ | ⟨_, _, _, _, e⟩ | ⟨_, _, _, _, e⟩ | ⟨_, _, _, _, e⟩ | ⟨uns, a, b, cv, e⟩
    | ⟨uns, a, b, cv, e⟩ | e | ⟨value, a, ea, e⟩ | ⟨ea, w, e⟩ | ⟨ea, b, e⟩ | ⟨link, cc, target, e⟩ <;> rw [e] at h
  · exact .inl ⟨_, _, s.H, s.C, s.V, moveOp_eq_next.mp h⟩
  · exact .inl ⟨_, _, s.H, s.C, s.V, aluOp_eq_next.mp h⟩
  · exact .inl ⟨_, _, s.H, _, _, addOp_eq_next.mp h⟩
  · exact .inl ⟨_, _, s.H, _, _, subOp_eq_next.mp h⟩
  · exact .inl ⟨a, lowHalf (product uns (s.reg b) cv), highHalf (product uns (s.reg b) cv), s.C, s.V,
      mulOp_eq_next.mp h⟩
  · rcases divOp_cases uns a b cv s with ⟨_, _, e⟩ | ⟨_, e⟩ <;> rw [e] at h <;> cases h
    exact .inl ⟨a, quotient uns (s.reg b) cv, remainder uns (s.reg b) cv, s.C, s.V, rfl⟩
  · cases h
  · rcases loadOp_cases value a ea s with ⟨_, e⟩ | ⟨d, _, e⟩ <;> rw [e] at h <;> cases h
    exact .inl ⟨a, d, s.H, s.C, s.V, rfl⟩
  · obtain ⟨m, hm, rfl⟩ := storeOp_eq_next.mp h
    obtain ⟨-, -, hmap, rfl⟩ := memWriteWord_eq_next.mp hm
    exact .inr (.inl ⟨ea, w, hmap, rfl⟩)
  · obtain ⟨m, hm, rfl⟩ := storeOp_eq_next.mp h
    obtain ⟨-, hmap, rfl⟩ := memWriteByte_eq_next.mp hm
    exact .inr (.inr (.inl ⟨ea, b, hmap, rfl⟩))
  · rw [branchOp_eq, Host.Outcome.next.injEq] at h
    exact .inr (.inr (.inr ⟨_, by split at h <;> [exact .inr h.symm; exact .inl h.symm]⟩))

/-- No instruction's own effect touches the surround, of which the platform is a part. -/
theorem exec_sameSurround {i : Instr} {s t : State} (h : exec i s = .next t) : SameSurround s t := by
  rcases exec_next_cases h with ⟨_, _, _, _, _, rfl⟩ | ⟨_, _, _, rfl⟩ | ⟨_, _, _, rfl⟩ | ⟨_, rfl | rfl⟩ <;>
    exact ⟨rfl, rfl, rfl, rfl, rfl, rfl, rfl⟩

/-- Instructions map and unmap no data byte: a store writes only where memory is mapped already (20_memory.md R61). -/
theorem exec_mapped {i : Instr} {s t : State} (h : exec i s = .next t) (x : Word) :
    t.mem.mapped x = s.mem.mapped x := by
  rcases exec_next_cases h with ⟨_, _, _, _, _, rfl⟩ | ⟨_, w, hmap, rfl⟩ | ⟨_, b, hmap, rfl⟩ | ⟨_, rfl | rfl⟩
  · rfl
  · exact Memory.mapped_writeWord hmap w x
  · exact Memory.mapped_set hmap b x
  · rfl
  · rfl

/-- Settles O9: a step opens a unit, perhaps executes one instruction, and returns the unit; only the instruction could
touch the platform. -/
theorem stepKeepsThePlatform : Obligations.StepKeepsThePlatform := by
  intro s t h
  rcases step_eq_next h with ⟨_, rfl⟩ | ⟨_, w, u, _, hu, rfl⟩
  · simp
  · obtain ⟨hI, hfetch, hbreak, hmax, hcfg, -, -⟩ := exec_sameSurround hu
    simp [hI, hfetch, hbreak, hmax, hcfg, exec_mapped hu]

end Sys2Proof.Machine
end

section
/-! PROOFS. The fetch (20_memory.md R57; 60_exceptions.md R263, R269): where a step stops at it, and what a step that gets
a word does. -/

namespace Sys2Proof.Machine

/-! ### Alignment and mapped words -/

theorem aligned_iff (a : Word) : aligned a = true ↔ a.toNat % 4 = 0 := by
  simp [aligned, field, ← BitVec.toNat_inj]

theorem aligned_eq_false_iff (a : Word) : aligned a = false ↔ a.toNat % 4 ≠ 0 := by
  rw [← Bool.not_eq_true, aligned_iff]

/-- A word is not wholly mapped exactly where one of its four bytes is missing (log 14). -/
theorem Memory.mappedWord_eq_false_iff (m : Memory) (a : Word) :
    m.mappedWord a = false ↔ ∃ k < 4, m.get (a + BitVec.ofNat 32 k) = none := by
  simp only [Memory.mappedWord, Memory.mapped, Bool.and_eq_false_iff, Option.isSome_eq_false_iff,
    Option.isNone_iff_eq_none, Nat.exists_lt_succ_right, Nat.not_lt_zero, false_and, exists_false, false_or,
    BitVec.add_zero]

/-! ### A step, by the outcome of its fetch -/

theorem step_of_fetch_eq_none {s : State} (hb : s.breakpointAt s.pc = false) (hf : s.fetch s.pc = none) :
    step s = .fault (.memoryFault .fetch s.pc s.pc) := by
  simp [step, raise, hb, hf]

theorem step_of_fetch_eq_some {s : State} {w : Word} (hb : s.breakpointAt s.pc = false) (hf : s.fetch s.pc = some w) :
    step s = runWord w s.openUnit := by
  simp [step, hb, hf]

/-- No instruction raises the fetch's own fault: loads and stores raise theirs, a divide raises another signal. -/
theorem exec_ne_fetchFault (i : Instr) (s : State) (addr a0 : Word) :
    exec i s ≠ .fault (.memoryFault .fetch addr a0) := by
  rcases exec_cases i s with ⟨_, _, e⟩ | ⟨_, _, _, _, e⟩ | ⟨_, _, _, _, e⟩ | ⟨_, _, _, _, e⟩ | ⟨_, _, _, _, e⟩
    | ⟨uns, a, b, cv, e⟩ | e | ⟨value, a, ea, e⟩ | ⟨ea, w, e⟩ | ⟨ea, b, e⟩ | ⟨link, cc, target, e⟩ <;> rw [e]
  · nofun
  · nofun
  · nofun
  · nofun
  · nofun
  · rcases divOp_cases uns a b cv s with ⟨g, hg, e⟩ | ⟨_, e⟩ <;> rw [e]
    · rcases divideSignal_eq_some.mp hg with ⟨_, rfl⟩ | ⟨_, _, rfl⟩ <;> nofun
    · nofun
  · nofun
  · rcases loadOp_cases value a ea s with ⟨_, e⟩ | ⟨_, _, e⟩ <;> rw [e] <;> nofun
  · rcases memWriteWord_cases s ea w with ⟨_, e⟩ | ⟨_, _, e⟩ | ⟨_, _, _, e⟩ | ⟨_, _, _, e⟩ <;> rw [e] <;> nofun
  · rcases memWriteByte_cases s ea b with ⟨_, e⟩ | ⟨_, _, e⟩ | ⟨_, _, e⟩ <;> rw [e] <;> nofun
  · nofun

theorem runWord_ne_fetchFault (w : Word) (s : State) (addr a0 : Word) :
    runWord w s ≠ .fault (.memoryFault .fetch addr a0) := by
  intro h
  rcases bindResult_eq_fault.mp h with h | ⟨_, _, h⟩
  · exact exec_ne_fetchFault _ _ _ _ h
  · cases h

/-- Without a breakpoint, a step raises the fetch's fault exactly when the fetch gives no word. -/
theorem step_eq_fetchFault_iff {s : State} (hb : s.breakpointAt s.pc = false) :
    step s = .fault (.memoryFault .fetch s.pc s.pc) ↔ s.fetch s.pc = none := by
  refine ⟨fun h => ?_, step_of_fetch_eq_none hb⟩
  cases hf : s.fetch s.pc with
  | none => rfl
  | some w => exact absurd ((step_of_fetch_eq_some hb hf).symm.trans h) (runWord_ne_fetchFault _ _ _ _)

/-- Settles O12: the fault is the fetch giving no word, which is misalignment or a missing byte. -/
theorem fetchFaultsExactlyWhere : Obligations.FetchFaultsExactlyWhere := fun s hb => by
  rw [step_eq_fetchFault_iff hb, fetch_eq_none, aligned_eq_false_iff, Memory.mappedWord_eq_false_iff]

/-! ### A placed word -/

/-- The address a word is placed at is a multiple of 4 (log 22). -/
theorem withFetchWord_pc_aligned (s : State) (nbits w : Nat) : aligned (s.withFetchWord nbits w).pc = true := by
  simp [State.withFetchWord, aligned, field, BitVec.extractLsb'_and]

/-- The fetch at the placed word gives it back (20_memory.md R57). -/
theorem withFetchWord_fetch (s : State) (nbits w : Nat) :
    (s.withFetchWord nbits w).fetch (s.withFetchWord nbits w).pc = some (BitVec.ofNat 32 (w % 2 ^ nbits)) :=
  fetch_eq_some.mpr ⟨withFetchWord_pc_aligned s nbits w, Memory.readWord_writeWord _ _ _⟩

/-- Placing a word removes a breakpoint there (log 22). -/
theorem withFetchWord_breakpointAt (s : State) (nbits w : Nat) :
    (s.withFetchWord nbits w).breakpointAt (s.withFetchWord nbits w).pc = false := by
  simp [State.withFetchWord, State.breakpointAt]

/-- Settles O13: no breakpoint stops the step, and its fetch gives the placed word. -/
theorem placedWordIsTheNextInstruction : Obligations.PlacedWordIsTheNextInstruction := fun s nbits w =>
  step_of_fetch_eq_some (withFetchWord_breakpointAt s nbits w) (withFetchWord_fetch s nbits w)

end Sys2Proof.Machine
end

section
/-! PROOFS. Loads after stores (20_memory.md R52, R63): the bytes a store leaves, and the loads that read them. -/

namespace Sys2Proof.Machine

/-! ### Bytes of a word -/

/-- Byte `k` of a word as a number (20_memory.md R52). -/
theorem setWidth_byteOf (w : Word) (k : Nat) :
    (byteOf w k).setWidth 32 = BitVec.ofNat 32 (w.toNat / 2 ^ (8 * k) % 256) := by
  apply BitVec.eq_of_toNat_eq
  simp [byteOf, field, Nat.shiftRight_eq_div_pow]

/-- A byte read where a word was written is that byte of the word (20_memory.md R52). -/
theorem Memory.get_writeWord_byte (m : Memory) (a w : Word) {k : Nat} (hk : k < 4) :
    (m.writeWord a w).get (a + BitVec.ofNat 32 k) = some (byteOf w k) := by
  obtain ⟨h1, h2, h3, h21, h31, h32⟩ := word_addresses a
  rw [Memory.get_writeWord]
  interval_cases k
  · simp [h1.symm, h2.symm, h3.symm]
  · simp [h21.symm, h31.symm]
  · simp [h32.symm]
  · simp

/-! ### What a completed store leaves, and what a load of it finds -/

theorem exec_stw_eq_next {a b : Reg} {off : BitVec 20} {s t : State} (h : exec (.stw a b off) s = .next t) :
    aligned (s.ea b off) = true ∧ t.mem = s.mem.writeWord (s.ea b off) (s.reg a) := by
  obtain ⟨m, hm, rfl⟩ := storeOp_eq_next.mp h
  obtain ⟨hal, -, -, rfl⟩ := memWriteWord_eq_next.mp hm
  exact ⟨hal, rfl⟩

theorem exec_stb_eq_next {a b : Reg} {off : BitVec 20} {s t : State} (h : exec (.stb a b off) s = .next t) :
    t.mem = s.mem.set (s.ea b off) (byteOf (s.reg a) 0) := by
  obtain ⟨m, hm, rfl⟩ := storeOp_eq_next.mp h
  obtain ⟨-, -, rfl⟩ := memWriteByte_eq_next.mp hm
  rfl

/-- A load whose read gives a value completes with it (42_memory_ops.md R171, R172). -/
theorem completes_of_loadOp {i : Instr} {a : Reg} {ea d : Word} {s : State}
    (h : exec i s = loadOp (some d) a ea s) : Completes i s (fun u => u.reg a = d) :=
  ⟨s.finish a d, h, by simp⟩

/-- A word load completes where the address is aligned and the word mapped (42_memory_ops.md R171). -/
theorem completes_ldw {a b : Reg} {off : BitVec 20} {s : State} {d : Word} (hal : aligned (s.ea b off) = true)
    (hread : s.mem.readWord (s.ea b off) = some d) : Completes (.ldw a b off) s (fun u => u.reg a = d) :=
  completes_of_loadOp (congrArg (loadOp · a (s.ea b off) s) (memReadWord_eq_some.mpr ⟨hal, hread⟩))

/-- A byte load where memory holds byte `k` of a word completes with that byte, zero-extended (42_memory_ops.md R172). -/
theorem completes_ldb {a b : Reg} {off : BitVec 20} {s : State} {w : Word} {k : Nat}
    (hget : s.mem.get (s.ea b off) = some (byteOf w k)) :
    Completes (.ldb a b off) s (fun u => u.reg a = BitVec.ofNat 32 (w.toNat / 2 ^ (8 * k) % 256)) :=
  completes_of_loadOp (congrArg (loadOp · a (s.ea b off) s)
    (memReadByte_eq_some.mpr ⟨_, hget, setWidth_byteOf w k⟩))

/-- Settles O40: the load reads the bytes the store wrote. -/
theorem loadReturnsTheLatestStore : Obligations.LoadReturnsTheLatestStore := by
  intro s t a b a' b' off off'
  refine ⟨fun hst => ?_, fun hst hea => ?_⟩
  · obtain ⟨hal, hmem⟩ := exec_stw_eq_next hst
    refine ⟨fun hea => completes_ldw (by rw [hea, hal]) ?_, fun k hk hea => completes_ldb ?_⟩
    · rw [hmem, hea, Memory.readWord_writeWord]
    · rw [hmem, hea, Memory.get_writeWord_byte _ _ _ hk]
  · have hget : t.mem.get (t.ea b' off') = some (byteOf (s.reg a) 0) := by
      rw [exec_stb_eq_next hst, hea, Memory.get_set, if_pos rfl]
    simpa using completes_ldb hget

end Sys2Proof.Machine
end

section
/-! PROOFS. The alignment of `pc` (10_state.md R25; 20_memory.md R57): every instruction but the branches goes to the next
one, and a branch word says which of its targets can be misaligned (43_branch_ops.md R193, R194). -/

namespace Sys2Proof.Machine

/-! ### Where the shared operations go -/

theorem moveOp_pc {a : Reg} {d : Word} {s t : State} (h : moveOp a d s = .next t) : t.pc = s.next := by
  rw [moveOp_eq_next.mp h]; rfl

theorem aluOp_pc {f : Word → Word → Word} {a b : Reg} {cv : Word} {s t : State} (h : aluOp f a b cv s = .next t) :
    t.pc = s.next := by
  rw [aluOp_eq_next.mp h]; rfl

theorem addOp_pc {cin : Bool} {a b : Reg} {cv : Word} {s t : State} (h : addOp cin a b cv s = .next t) :
    t.pc = s.next := by
  rw [addOp_eq_next.mp h]; rfl

theorem subOp_pc {cin : Bool} {a b : Reg} {cv : Word} {s t : State} (h : subOp cin a b cv s = .next t) :
    t.pc = s.next := by
  rw [subOp_eq_next.mp h]; rfl

theorem mulOp_pc {uns : Bool} {a b : Reg} {cv : Word} {s t : State} (h : mulOp uns a b cv s = .next t) :
    t.pc = s.next := by
  rw [mulOp_eq_next.mp h]; rfl

theorem divOp_pc {uns : Bool} {a b : Reg} {cv : Word} {s t : State} (h : divOp uns a b cv s = .next t) :
    t.pc = s.next := by
  rcases divOp_cases uns a b cv s with ⟨_, _, e⟩ | ⟨_, e⟩ <;> rw [e] at h <;> cases h
  rfl

theorem loadOp_pc {value : Option Word} {a : Reg} {ea : Word} {s t : State} (h : loadOp value a ea s = .next t) :
    t.pc = s.next := by
  rcases loadOp_cases value a ea s with ⟨_, e⟩ | ⟨_, _, e⟩ <;> rw [e] at h <;> cases h
  rfl

theorem storeOp_pc {written : Result Memory} {s t : State} (h : storeOp written s = .next t) : t.pc = s.next := by
  obtain ⟨_, _, rfl⟩ := storeOp_eq_next.mp h
  rfl

/-- A branch goes to its target or falls through (43_branch_ops.md R191). -/
theorem branchOp_pc {link : Bool} {cc : Cond} {target : Word} {s t : State} (h : branchOp link cc target s = .next t) :
    t.pc = s.next ∨ t.pc = target := by
  rw [branchOp_eq, Host.Outcome.next.injEq] at h
  subst h
  cases h : s.taken cc <;> simp

/-! ### Where a word goes, format by format -/

/-- `i` never leaves `pc` anywhere but at the next instruction. -/
def FallsThrough (i : Instr) : Prop := ∀ {s t : State}, exec i s = .next t → t.pc = s.next

theorem fallsThrough_regForm (u v : Bool) (op : AluSel) (a b c : Reg) : FallsThrough (regForm u v op a b c) := by
  intro s t
  cases op with
  | mov => cases u <;> [skip; cases v] <;> exact moveOp_pc
  | lsl | asr | ror | and | ann | ior | xor => exact aluOp_pc
  | add => cases u <;> exact addOp_pc
  | sub => cases u <;> exact subOp_pc
  | mul => cases u <;> exact mulOp_pc
  | div => cases u <;> exact divOp_pc
  | fad | fsb | fml | fdv => exact nofun

theorem fallsThrough_immForm (u v : Bool) (op : AluSel) (a b : Reg) (imm : BitVec 16) :
    FallsThrough (immForm u v op a b imm) := by
  intro s t
  cases op with
  | mov => cases u <;> exact moveOp_pc
  | lsl | asr | ror | and | ann | ior | xor => exact aluOp_pc
  | add => cases u <;> exact addOp_pc
  | sub => cases u <;> exact subOp_pc
  | mul => cases u <;> exact mulOp_pc
  | div => cases u <;> exact divOp_pc
  | fad | fsb | fml | fdv => exact nofun

theorem fallsThrough_memForm (u v : Bool) (a b : Reg) (off : BitVec 20) : FallsThrough (memForm u v a b off) := by
  intro s t
  cases u <;> cases v
  · exact loadOp_pc
  · exact loadOp_pc
  · exact storeOp_pc
  · exact storeOp_pc

/-- Only the branch class leaves the straight line (43_branch_ops.md R201). -/
theorem fallsThrough_of_not_branch {w : Word} (hw : isBranchWord w = false) : FallsThrough (decodeWord w) := by
  cases h31 : bit w 31 <;> cases h30 : bit w 30
  · rw [decodeWord_reg h31 h30]; exact fallsThrough_regForm _ _ _ _ _ _
  · rw [decodeWord_imm h31 h30]; exact fallsThrough_immForm _ _ _ _ _ _
  · rw [decodeWord_mem h31 h30]; exact fallsThrough_memForm _ _ _ _ _
  · simp [isBranchWord, h31, h30] at hw

/-- Every register-indirect form is the branch to its register (43_branch_ops.md R199, R200). -/
theorem exec_branchInd (link : Bool) (cc : Cond) (c : Reg) (s : State) :
    exec (branchInd link cc c) s = branchOp link cc (s.reg c) s := by
  obtain ⟨inv, sel⟩ := cc
  cases link <;> cases inv <;> cases sel <;> rfl

/-- Every pc-relative form is the branch by its displacement (43_branch_ops.md R197, R198). -/
theorem exec_branchRel (link : Bool) (cc : Cond) (off : BitVec 24) (s : State) :
    exec (branchRel link cc off) s = branchOp link cc (s.relTarget off) s := by
  obtain ⟨inv, sel⟩ := cc
  cases link <;> cases inv <;> cases sel <;> rfl

/-- Everywhere a word can go: the next instruction, its pc-relative target, or the value of its register. -/
theorem exec_decodeWord_pc {w : Word} {s t : State} (h : exec (decodeWord w) s = .next t) :
    t.pc = s.next ∨ t.pc = s.relTarget (field w 0 24)
      ∨ isBranchWord w = true ∧ bit w 29 = false ∧ t.pc = s.reg (regOfBits (field w 0 4)) := by
  cases hw : isBranchWord w
  · exact .inl (fallsThrough_of_not_branch hw h)
  · rw [decodeWord_branch hw] at h
    cases hu : bit w 29 <;> simp only [hu, if_true, if_false, Bool.false_eq_true] at h
    · rw [exec_branchInd] at h
      exact (branchOp_pc h).imp_right fun e => .inr ⟨rfl, rfl, e⟩
    · rw [exec_branchRel] at h
      exact (branchOp_pc h).imp_right .inl

/-! ### The targets that are multiples of 4 -/

theorem next_aligned {s : State} (h : s.pc.toNat % 4 = 0) : s.next.toNat % 4 = 0 := by
  unfold State.next; bv_omega

/-- A displacement counts words (30_encoding.md R89; 43_branch_ops.md R193). -/
theorem displacement_aligned (off : BitVec 24) : (displacement off).toNat % 4 = 0 := by
  simp only [displacement, BitVec.toNat_shiftLeft, Nat.shiftLeft_eq]; omega

theorem relTarget_aligned {s : State} (h : s.pc.toNat % 4 = 0) (off : BitVec 24) :
    (s.relTarget off).toNat % 4 = 0 := by
  have hnext := next_aligned h
  have hdisp := displacement_aligned off
  rw [State.relTarget, BitVec.toNat_add]; omega

/-- Settles O48: a step stays at a breakpoint, or goes where its word goes. -/
theorem pcStaysAligned : Obligations.PcStaysAligned := by
  intro s t h hpc
  rcases step_eq_next h with ⟨_, rfl⟩ | ⟨_, w, u, hf, hu, rfl⟩
  · simp [hpc]
  · have hgoes := exec_decodeWord_pc hu
    simp only [returnUnit_pc, State.setBuilder_pc, openUnit_next, openUnit_relTarget, openUnit_reg] at hgoes ⊢
    rcases hgoes with e | e | ⟨hw, hu, e⟩
    · exact .inl (e ▸ next_aligned hpc)
    · exact .inl (e ▸ relTarget_aligned hpc _)
    · exact .inr ⟨w, hf, hw, hu, e⟩

end Sys2Proof.Machine
end

section
/-! PROOFS. The fields of a word: put together again they give the word back, and a few of them decide which bits it
ignores (30_encoding.md R82 to R86, R95). -/

namespace Sys2Proof

/-! ### The fields of a word, put together again -/

theorem regWord_fields {w : Word} (h31 : bit w 31 = false) (h30 : bit w 30 = false) :
    regWord (bit w 29) (bit w 28) (aluSelOfBits (field w 16 4)) (regOfBits (field w 24 4))
      (regOfBits (field w 20 4)) (regOfBits (field w 0 4)) = w &&& ~~~0x0000FFF0 := by
  simp only [bit, BitVec.getLsbD_eq_getElem, Nat.reduceLT] at h31 h30
  simp only [regWord, aluSelBits_ofBits, regBits_regOfBits]
  ext i hi; simp [bit, field, put]; interval_cases i <;> simp [h31, h30]

theorem immWord_fields {w : Word} (h31 : bit w 31 = false) (h30 : bit w 30 = true) :
    immWord (bit w 29) (bit w 28) (aluSelOfBits (field w 16 4)) (regOfBits (field w 24 4))
      (regOfBits (field w 20 4)) (field w 0 16) = w := by
  simp only [bit, BitVec.getLsbD_eq_getElem, Nat.reduceLT] at h31 h30
  simp only [immWord, aluSelBits_ofBits, regBits_regOfBits]
  ext i hi; simp [bit, field, put]; interval_cases i <;> simp [h31, h30]

theorem memWord_fields {w : Word} (h31 : bit w 31 = true) (h30 : bit w 30 = false) :
    memWord (bit w 29) (bit w 28) (regOfBits (field w 24 4)) (regOfBits (field w 20 4)) (field w 0 20) = w := by
  simp only [bit, BitVec.getLsbD_eq_getElem, Nat.reduceLT] at h31 h30
  simp only [memWord, regBits_regOfBits]
  ext i hi; simp [bit, field, put]; interval_cases i <;> simp [h31, h30]

theorem brrWord_fields {w : Word} (h31 : bit w 31 = true) (h30 : bit w 30 = true) (h29 : bit w 29 = false) :
    brrWord (bit w 28) (condOfWord w) (regOfBits (field w 0 4)) = w &&& ~~~0x00FFFFF0 := by
  simp only [bit, BitVec.getLsbD_eq_getElem, Nat.reduceLT] at h31 h30 h29
  simp only [brrWord, condOfWord, condSelBits_ofBits, regBits_regOfBits]
  ext i hi; simp [bit, field, put]; interval_cases i <;> simp [h31, h30, h29]

theorem briWord_fields {w : Word} (h31 : bit w 31 = true) (h30 : bit w 30 = true) (h29 : bit w 29 = true) :
    briWord (bit w 28) (condOfWord w) (field w 0 24) = w := by
  simp only [bit, BitVec.getLsbD_eq_getElem, Nat.reduceLT] at h31 h30 h29
  simp only [briWord, condOfWord, condSelBits_ofBits]
  ext i hi; simp [bit, field, put]; interval_cases i <;> simp [h31, h30, h29]

/-! ### The bits a word ignores, as a function of its class, its `u` and its selector -/

/-- The table of 30_encoding.md R95 over the fields it reads: `w[31]`, `w[30]`, `u = w[29]` and the selector. -/
def ignoredOf (b31 b30 u : Bool) (op : AluSel) : Word :=
  if b31 then if b30 && !u then 0x00FFFFF0 else 0
  else match op with
    | .mov => if b30 then if u then 0x10F00000 else 0x00F00000 else if u then 0x00F0FFFF else 0x10F0FFF0
    | .lsl | .asr | .ror | .and | .ann | .ior | .xor => if b30 then 0x20000000 else 0x3000FFF0
    | .add | .sub | .mul | .div => if b30 then 0 else 0x1000FFF0
    | .fad | .fsb | .fml | .fdv => 0x3FF0FFFF

/-- No line of the table tests a bit outside the head `w[31:29]`, `w[19:16]`. -/
theorem ignoredBits_and_head (w : Word) : ignoredBits (w &&& 0xE00F0000) = ignoredBits w := by
  have hmask : ∀ r ∈ ignoredRows, (0xE00F0000 : Word) &&& r.mask = r.mask := by decide
  have hfind : ignoredRows.find? (fun r => w &&& 0xE00F0000 &&& r.mask == r.pattern)
      = ignoredRows.find? (fun r => w &&& r.mask == r.pattern) :=
    List.find?_congr fun r hr => by rw [BitVec.and_assoc, hmask r hr]
  simp only [ignoredBits, hfind]

theorem and_head (w : Word) : w &&& 0xE00F0000
    = put (BitVec.ofBool (bit w 31)) 31 ||| put (BitVec.ofBool (bit w 30)) 30 ||| put (BitVec.ofBool (bit w 29)) 29
      ||| put (field w 16 4) 16 := by
  ext i hi; simp [bit, field, put]; interval_cases i <;> simp

theorem ignoredBits_eq (w : Word) :
    ignoredBits w = ignoredOf (bit w 31) (bit w 30) (bit w 29) (aluSelOfBits (field w 16 4)) := by
  rw [← ignoredBits_and_head, and_head]
  conv => lhs; rw [← aluSelBits_ofBits (field w 16 4)]
  generalize aluSelOfBits (field w 16 4) = op
  cases bit w 31 <;> cases bit w 30 <;> cases bit w 29 <;> cases op <;> rfl

end Sys2Proof
end

section
/-! PROOFS. The round trip (30_encoding.md R95, R100, R102): an instruction's word decodes to it, and encoding what a
word decodes to clears the bits the word ignores and keeps all others. -/

namespace Sys2Proof

/-! ### Clearing bits of a field -/

theorem put_and {n : Nat} (f : BitVec n) (lo : Nat) (m : Word) : put f lo &&& m = put (f &&& field m lo n) lo := by
  refine word_eq_of_bit fun k hk => ?_
  simp only [bit_and, bit_put, BitVec.getLsbD_and, getLsbD_field]
  by_cases hlo : lo ≤ k
  · by_cases hn : k - lo < n
    · simp [hn, Nat.add_sub_cancel' hlo, Bool.and_assoc]
    · simp [BitVec.getLsbD_of_ge f (k - lo) (by omega)]
  · simp [hlo]

@[simp] theorem put_zero (n lo : Nat) : put (0#n) lo = 0 := by simp [put]

@[simp] theorem regBits_zero : regBits 0 = 0#4 := rfl

theorem put_and_keep {n : Nat} (f : BitVec n) {lo : Nat} {m : Word} (h : field m lo n = BitVec.allOnes n) :
    put f lo &&& m = put f lo := by rw [put_and, h, BitVec.and_allOnes]

theorem put_and_drop {n : Nat} (f : BitVec n) {lo : Nat} {m : Word} (h : field m lo n = 0#n) :
    put f lo &&& m = 0 := by rw [put_and, h, BitVec.and_zero, put_zero]

@[simp] theorem and_ones (w : Word) : w &&& 0xFFFFFFFF#32 = w := BitVec.and_allOnes

/-! ### Encoding after decoding: the ignored bits are cleared

The rows of a selector differ in `u` (and MOV in `v`): those are split on, and the fields of what is left are kept or
dropped one by one. -/

theorem encodeWord_regForm (u v : Bool) (op : AluSel) (a b c : Reg) :
    encodeWord (regForm u v op a b c) = regWord u v op a b c &&& ~~~ignoredOf false false u op := by
  cases op
  case' mov => cases u <;> [skip; cases v]
  case' add | sub | mul | div => cases u
  all_goals simp (disch := decide) [regForm, encodeWord, ignoredOf, regWord, BitVec.and_or_distrib_right,
    put_and_keep, put_and_drop]

theorem encodeWord_immForm (u v : Bool) (op : AluSel) (a b : Reg) (imm : BitVec 16) :
    encodeWord (immForm u v op a b imm) = immWord u v op a b imm &&& ~~~ignoredOf false true u op := by
  cases op
  case' mov | add | sub | mul | div => cases u
  all_goals simp (disch := decide) [immForm, encodeWord, ignoredOf, immWord, BitVec.and_or_distrib_right,
    put_and_keep, put_and_drop]

theorem encodeWord_memForm (u v : Bool) (a b : Reg) (off : BitVec 20) :
    encodeWord (memForm u v a b off) = memWord u v a b off := by cases u <;> cases v <;> rfl

theorem encodeWord_branchInd (link : Bool) (cc : Cond) (c : Reg) :
    encodeWord (branchInd link cc c) = brrWord link cc c := by
  obtain ⟨inv, sel⟩ := cc
  cases link <;> cases inv <;> cases sel <;> rfl

theorem encodeWord_branchRel (link : Bool) (cc : Cond) (off : BitVec 24) :
    encodeWord (branchRel link cc off) = briWord link cc off := by
  obtain ⟨inv, sel⟩ := cc
  cases link <;> cases inv <;> cases sel <;> rfl

/-- Every bit of `junk` is among the `ignored`: clearing the ignored bits clears it too. -/
theorem and_not_and_not {w junk ignored : Word} (h : ~~~junk &&& ~~~ignored = ~~~ignored) :
    w &&& ~~~junk &&& ~~~ignored = w &&& ~~~ignored := by rw [BitVec.and_assoc, h]

/-- Settles O2, format by format. -/
theorem encodeInvertsDecodeUpToIgnoredBits : Obligations.EncodeInvertsDecodeUpToIgnoredBits := by
  intro w
  rw [ignoredBits_eq]
  cases h31 : bit w 31 <;> cases h30 : bit w 30
  · rw [decodeWord_reg h31 h30, encodeWord_regForm, regWord_fields h31 h30]
    refine and_not_and_not ?_
    generalize aluSelOfBits (field w 16 4) = op
    cases bit w 29 <;> cases op <;> rfl
  · rw [decodeWord_imm h31 h30, encodeWord_immForm, immWord_fields h31 h30]
  · rw [decodeWord_mem h31 h30, encodeWord_memForm, memWord_fields h31 h30]
    simp [ignoredOf]
  · rw [decodeWord_branch (by simp [isBranchWord, h31, h30])]
    cases h29 : bit w 29
    · simpa [encodeWord_branchInd, ignoredOf] using brrWord_fields h31 h30 h29
    · simpa [encodeWord_branchRel, ignoredOf] using briWord_fields h31 h30 h29

/-! ### Decoding after encoding -/

theorem decodeWord_encodeWord (i : Instr) : decodeWord (encodeWord i) = i := by
  cases i with
  | movReg | movH | movFlags | lslReg | asrReg | rorReg | andReg | annReg | iorReg | xorReg
  | addReg | adcReg | subReg | sbcReg | mulReg | umulReg | divReg | udivReg
  | fadReg | fsbReg | fmlReg | fdvReg => exact decodeWord_regWord _ _ _ _ _ _
  | movImm | movhi | lslImm | asrImm | rorImm | andImm | annImm | iorImm | xorImm
  | addImm | adcImm | subImm | sbcImm | mulImm | umulImm | divImm | udivImm
  | fadImm | fsbImm | fmlImm | fdvImm => exact decodeWord_immWord _ _ _ _ _ _
  | ldw | ldb | stw | stb => exact decodeWord_memWord _ _ _ _ _
  | bmiInd | beqInd | bcsInd | bvsInd | blsInd | bltInd | bleInd | bInd
  | bplInd | bneInd | bccInd | bvcInd | bhiInd | bgeInd | bgtInd | bnvInd
  | blmiInd | bleqInd | blcsInd | blvsInd | bllsInd | blltInd | blleInd | blInd
  | blplInd | blneInd | blccInd | blvcInd | blhiInd | blgeInd | blgtInd | blnvInd =>
    exact decodeWord_brrWord _ _ _
  | _ => exact decodeWord_briWord _ _ _

theorem and_eq_zero_of_and_not_eq_self {w m : Word} (h : w &&& ~~~m = w) : w &&& m = 0 := by
  rw [← h, BitVec.and_assoc]; simp

theorem canonicalWord_encodeWord (i : Instr) : canonicalWord (encodeWord i) = true := by
  have h := encodeInvertsDecodeUpToIgnoredBits (encodeWord i)
  rw [decodeWord_encodeWord] at h
  simpa [canonicalWord] using and_eq_zero_of_and_not_eq_self h.symm

/-- Settles O1: the word is canonical because encoding what it decodes to (O2) is the word itself. -/
theorem decodeInvertsEncode : Obligations.DecodeInvertsEncode := fun i =>
  ⟨by rw [encode, decode_bytes, decodeWord_encodeWord], canonicalWord_encodeWord i⟩

end Sys2Proof
end

section
/-! PROOFS. The opcode map (30_encoding.md R102): every word has the row whose bits it tests, words that agree on those
bits share the row, and the ignored bits are not among them. -/

namespace Sys2Proof

open Laws.EncodesItsRow (mask_regWord mask_immWord mask_memWord mask_brrWord mask_briWord narrow)

/-! ### The row of a word: the bits it tests -/

/-- The bits of `w` that choose its row (30_encoding.md R102): those its class reads as an opcode, less the ignored. In
the IMM format `v` is an operand (R87), in the MOV rows of the REG format part of the mode (R92). -/
def testedBits (w : Word) : Word :=
  (if bit w 31 then if bit w 30 then 0xFF000000 else 0xF0000000
    else if bit w 30 then 0xE00F0000 else 0xF00F0000) &&& ~~~ignoredBits w

theorem row_regForm (u v : Bool) (op : AluSel) (a b c : Reg) :
    (regForm u v op a b c).row
      = ⟨regWord u v op a b c &&& (0xF00F0000 &&& ~~~ignoredOf false false u op),
          0xF00F0000 &&& ~~~ignoredOf false false u op⟩ := by
  rw [← BitVec.and_assoc, mask_regWord]
  cases op <;> cases u <;> cases v <;> rfl

theorem row_immForm (u v : Bool) (op : AluSel) (a b : Reg) (imm : BitVec 16) :
    (immForm u v op a b imm).row
      = ⟨immWord u v op a b imm &&& (0xE00F0000 &&& ~~~ignoredOf false true u op),
          0xE00F0000 &&& ~~~ignoredOf false true u op⟩ := by
  rw [← BitVec.and_assoc, narrow (mask_immWord u v op a b imm) (mask := 0xE00F0000) (by decide)]
  cases op <;> cases u <;> cases v <;> rfl

theorem row_memForm (u v : Bool) (a b : Reg) (off : BitVec 20) :
    (memForm u v a b off).row = ⟨memWord u v a b off &&& 0xF0000000, 0xF0000000⟩ := by
  rw [mask_memWord]
  cases u <;> cases v <;> rfl

theorem row_branchInd (link : Bool) (cc : Cond) (c : Reg) :
    (branchInd link cc c).row = ⟨brrWord link cc c &&& 0xFF000000, 0xFF000000⟩ := by
  rw [mask_brrWord]
  obtain ⟨inv, sel⟩ := cc
  cases link <;> cases inv <;> cases sel <;> rfl

theorem row_branchRel (link : Bool) (cc : Cond) (off : BitVec 24) :
    (branchRel link cc off).row = ⟨briWord link cc off &&& 0xFF000000, 0xFF000000⟩ := by
  rw [mask_briWord]
  obtain ⟨inv, sel⟩ := cc
  cases link <;> cases inv <;> cases sel <;> rfl

/-- The row of a word: the bits it tests, and their values in it. -/
theorem row_decodeWord (w : Word) : (decodeWord w).row = ⟨w &&& testedBits w, testedBits w⟩ := by
  unfold testedBits
  rw [ignoredBits_eq]
  cases h31 : bit w 31 <;> cases h30 : bit w 30
  · rw [decodeWord_reg h31 h30, row_regForm, regWord_fields h31 h30, ← BitVec.and_assoc, BitVec.and_assoc w]
    simp [BitVec.and_assoc]
  · rw [decodeWord_imm h31 h30, row_immForm, immWord_fields h31 h30]; rfl
  · rw [decodeWord_mem h31 h30, row_memForm, memWord_fields h31 h30]; simp [ignoredOf]
  · rw [decodeWord_branch (by simp [isBranchWord, h31, h30])]
    cases h29 : bit w 29
    · simp [row_branchInd, brrWord_fields h31 h30 h29, ignoredOf, BitVec.and_assoc]
    · simp [row_branchRel, briWord_fields h31 h30 h29, ignoredOf]

/-! ### Words that agree on the bits one of them tests

Bits 31 and 30 are always tested, the selector in the register class, and `u` wherever the table of ignored bits depends
on it. So such words ignore the same bits and test the same bits. -/

theorem bit_eq_of_and_eq {v w m : Word} (h : w &&& m = v &&& m) {k : Nat} (hk : bit m k = true) :
    bit w k = bit v k := by
  simpa [bit_and, hk] using congrArg (bit · k) h

theorem field_and (v w : Word) (lo n : Nat) : field (v &&& w) lo n = field v lo n &&& field w lo n :=
  BitVec.extractLsb'_and

theorem field_eq_of_and_eq {v w m : Word} (h : w &&& m = v &&& m) {lo n : Nat}
    (hm : field m lo n = BitVec.allOnes n) : field w lo n = field v lo n := by
  simpa [field_and, hm] using congrArg (field · lo n) h

theorem bit_testedBits_class (w : Word) : bit (testedBits w) 31 = true ∧ bit (testedBits w) 30 = true := by
  rw [testedBits, ignoredBits_eq]
  generalize aluSelOfBits (field w 16 4) = op
  cases bit w 31 <;> cases bit w 30 <;> cases bit w 29 <;> cases op <;> exact ⟨rfl, rfl⟩

theorem field_testedBits_op {w : Word} (h31 : bit w 31 = false) : field (testedBits w) 16 4 = BitVec.allOnes 4 := by
  rw [testedBits, ignoredBits_eq, h31]
  generalize aluSelOfBits (field w 16 4) = op
  cases bit w 30 <;> cases bit w 29 <;> cases op <;> rfl

theorem bit_testedBits_u (w : Word) : bit (testedBits w) 29 = !bit (ignoredBits w) 29 := by
  unfold testedBits
  cases bit w 31 <;> cases bit w 30 <;> simp [bit]

/-- Where `u` is ignored, the table does not read it (30_encoding.md R93). -/
theorem ignoredOf_eq_of_u_ignored {b31 b30 u : Bool} {op : AluSel} (h : bit (ignoredOf b31 b30 u op) 29 = true)
    (u' : Bool) : ignoredOf b31 b30 u' op = ignoredOf b31 b30 u op := by
  cases b31 with
  | true => cases b30 <;> cases u <;> simp [ignoredOf, bit] at h
  | false =>
    cases op with
    | lsl | asr | ror | and | ann | ior | xor | fad | fsb | fml | fdv => rfl
    | mov | add | sub | mul | div => cases b30 <;> cases u <;> cases h

theorem ignoredBits_congr {v w : Word} (h : w &&& testedBits v = v &&& testedBits v) :
    ignoredBits w = ignoredBits v := by
  obtain ⟨h31, h30⟩ := bit_testedBits_class v
  calc ignoredBits w
      = ignoredOf (bit v 31) (bit v 30) (bit w 29) (aluSelOfBits (field w 16 4)) := by
        rw [ignoredBits_eq, bit_eq_of_and_eq h h31, bit_eq_of_and_eq h h30]
    _ = ignoredOf (bit v 31) (bit v 30) (bit w 29) (aluSelOfBits (field v 16 4)) := by
        cases hclass : bit v 31
        · rw [field_eq_of_and_eq h (field_testedBits_op hclass)]
        · rfl
    _ = ignoredBits v := by
        cases hu : bit (ignoredBits v) 29
        · rw [bit_eq_of_and_eq h (k := 29) (by rw [bit_testedBits_u, hu]; rfl), ← ignoredBits_eq]
        · rw [ignoredBits_eq] at hu ⊢
          exact ignoredOf_eq_of_u_ignored hu _

theorem testedBits_congr {v w : Word} (h : w &&& testedBits v = v &&& testedBits v) :
    testedBits w = testedBits v := by
  obtain ⟨h31, h30⟩ := bit_testedBits_class v
  unfold testedBits
  rw [ignoredBits_congr h, bit_eq_of_and_eq h h31, bit_eq_of_and_eq h h30]

/-- Settles O4: two words that agree on the bits of a row have that row. -/
theorem everyWordMatchesExactlyOneRow : Obligations.EveryWordMatchesExactlyOneRow := by
  refine fun w => ⟨by rw [row_decodeWord], fun i h => ?_⟩
  have hrow := row_decodeWord (encodeWord i)
  rw [decodeWord_encodeWord] at hrow
  rw [hrow] at h ⊢
  rw [row_decodeWord w, testedBits_congr h, h]

/-! ### Flipping ignored bits -/

theorem flip_and_not (w d m : Word) : (w ^^^ (d &&& m)) &&& ~~~m = w &&& ~~~m := by
  ext k
  cases hm : m[k] <;> simp [hm]

theorem flip_and_testedBits (w d : Word) :
    (w ^^^ (d &&& ignoredBits w)) &&& testedBits w = w &&& testedBits w := by
  unfold testedBits
  rw [BitVec.and_comm _ (~~~ignoredBits w), ← BitVec.and_assoc, flip_and_not, BitVec.and_assoc]

/-- The decoder reads only what the encoder writes. -/
theorem decodeWord_and_not_ignoredBits (w : Word) : decodeWord (w &&& ~~~ignoredBits w) = decodeWord w := by
  rw [← encodeInvertsDecodeUpToIgnoredBits w, decodeWord_encodeWord]

/-- Settles O3: the two words ignore the same bits, and are one word once those are cleared. -/
theorem ignoredBitsNeverMatter : Obligations.IgnoredBitsNeverMatter := by
  intro w d
  have htested := flip_and_testedBits w d
  obtain ⟨h31, h30⟩ := bit_testedBits_class w
  constructor
  · rw [← decodeWord_and_not_ignoredBits (w ^^^ _), ignoredBits_congr htested, flip_and_not,
      decodeWord_and_not_ignoredBits]
  · rw [isBranchWord, isBranchWord, bit_eq_of_and_eq htested h31, bit_eq_of_and_eq htested h30]

end Sys2Proof
end

section
/-! PROOFS. The values of the moves, shifts and logic operations (40_regop_move_shift_logic.md R114 to R126): the C-value,
the moved, shifted and combined words as numbers and bits, and the instructions that write them. -/

namespace Sys2Proof.Machine

/-! ### The values moved -/

/-- The C-value of the IMM format is the number its immediate stands for (30_encoding.md R87). -/
theorem immValue_eq (v : Bool) (imm : BitVec 16) : immValue v imm = BitVec.ofInt 32 (immNumber v imm) := by
  cases v
  · simp [immValue, immNumber]
  · rfl

/-- The value of MOVHI is the immediate times 65536 (40_regop_move_shift_logic.md R118). -/
theorem put_sixteen (imm : BitVec 16) : put imm 16 = BitVec.ofNat 32 (imm.toNat * 65536) := by
  apply BitVec.eq_of_toNat_eq
  simp [put, Nat.shiftLeft_eq]

/-- The packed flags as a number (40_regop_move_shift_logic.md R116). -/
theorem packFlags_eq (n z c v : Bool) (shift : Nat) :
    packFlags n z c v shift
      = BitVec.ofNat 32 ((8 * n.toNat + 4 * z.toNat + 2 * c.toNat + v.toNat) * 2 ^ shift) := by
  have hfield : put (BitVec.ofBool n) 3 ||| put (BitVec.ofBool z) 2 ||| put (BitVec.ofBool c) 1
      ||| put (BitVec.ofBool v) 0 = BitVec.ofNat 32 (8 * n.toNat + 4 * z.toNat + 2 * c.toNat + v.toNat) := by
    revert n z c v; decide
  apply BitVec.eq_of_toNat_eq
  simp [packFlags, hfield, Nat.shiftLeft_eq]

/-- Four flags in the low bits leave bit 31 clear. -/
theorem negativeFlag_packFlags_zero (n z c v : Bool) : negativeFlag (packFlags n z c v 0) = false := by
  revert n z c v; decide

/-- The packed flags are zero exactly when all four are. -/
theorem zeroFlag_packFlags_zero (n z c v : Bool) :
    zeroFlag (packFlags n z c v 0) = true ↔ n = false ∧ z = false ∧ c = false ∧ v = false := by
  revert n z c v; decide

/-! ### The values shifted -/

/-- Only the low five bits of the C-value count (40_regop_move_shift_logic.md R120 to R122). -/
theorem shiftAmount_eq (cv : Word) : shiftAmount cv = cv.toNat % 32 := by
  simp [shiftAmount, field]

theorem lslValue_eq (bv cv : Word) : lslValue bv cv = BitVec.ofNat 32 (bv.toNat * 2 ^ (cv.toNat % 32)) := by
  apply BitVec.eq_of_toNat_eq
  simp [lslValue, shiftAmount_eq, Nat.shiftLeft_eq]

theorem asrValue_eq (bv cv : Word) : asrValue bv cv = BitVec.ofInt 32 (bv.toInt / 2 ^ (cv.toNat % 32)) := by
  rw [asrValue, shiftAmount_eq, BitVec.sshiftRight, Int.shiftRight_eq_div_pow]
  simp

/-- The two parts of a rotate share no bit. -/
theorem ushiftRight_and_shiftLeft (bv : Word) {n : Nat} (hn : n < 32) : bv >>> n &&& bv <<< (32 - n) = 0#32 := by
  ext i hi
  by_cases h : i < 32 - n
  · simp [h]
  · simp [BitVec.getLsbD_of_ge bv (n + i) (by omega)]

/-- A rotate right is the part shifted down plus the part shifted out, at the top (40_regop_move_shift_logic.md R122). -/
theorem rorValue_eq (bv cv : Word) :
    rorValue bv cv = BitVec.ofNat 32
      (bv.toNat / 2 ^ (cv.toNat % 32) + bv.toNat * 2 ^ (32 - cv.toNat % 32)) := by
  have hn : cv.toNat % 32 < 32 := Nat.mod_lt _ (by decide)
  calc rorValue bv cv = bv >>> (cv.toNat % 32) ||| bv <<< (32 - cv.toNat % 32) := by
        rw [rorValue, shiftAmount_eq, BitVec.rotateRight_def, Nat.mod_eq_of_lt hn]
    _ = bv >>> (cv.toNat % 32) + bv <<< (32 - cv.toNat % 32) :=
        (BitVec.add_eq_or_of_and_eq_zero _ _ (ushiftRight_and_shiftLeft bv hn)).symm
    _ = _ := by
        apply BitVec.eq_of_toNat_eq
        simp [Nat.shiftLeft_eq, Nat.shiftRight_eq_div_pow]

/-! ### The values combined bit by bit -/

theorem bit_andValue (bv cv : Word) (k : Nat) : bit (andValue bv cv) k = (bit bv k && bit cv k) := bit_and bv cv k

theorem bit_annValue (bv cv : Word) {k : Nat} (hk : k < 32) :
    bit (annValue bv cv) k = (bit bv k && !bit cv k) := by
  simp [annValue, bit, hk]

theorem bit_iorValue (bv cv : Word) (k : Nat) : bit (iorValue bv cv) k = (bit bv k || bit cv k) := bit_or bv cv k

theorem bit_xorValue (bv cv : Word) (k : Nat) : bit (xorValue bv cv) k = (bit bv k != bit cv k) :=
  BitVec.getLsbD_xor

/-! ### The instructions that write them -/

/-- A move completes, and writes its source as its destination (40_regop_move_shift_logic.md R113, R119). -/
theorem completes_of_moveOp {i : Instr} {a : Reg} {d d' : Word} {s : State} (h : exec i s = moveOp a d s)
    (hd : d = d') : Completes i s (fun t => WritesDest a d' s t ∧ KeepsHCV s t) :=
  ⟨_, h, hd ▸ writesDest_finish s a d, keepsHCV_finish s a d⟩

section Form

variable {i : Instr} {a b : Reg} {cv : Word} {s : State}

/-- A shift, rotate or logic operation completes, and writes its value as its destination. -/
theorem completes_of_aluOp {f : Word → Word → Word} {d : Word} (h : exec i s = aluOp f a b cv s)
    (hd : f (s.reg b) cv = d) : Completes i s (fun t => WritesDest a d s t ∧ KeepsHCV s t) :=
  ⟨_, h, hd ▸ writesDest_finish s a _, keepsHCV_finish s a _⟩

/-- A logic operation completes, and computes every bit of its destination from the same bit of its operands. -/
theorem completes_of_bitwise {f : Word → Word → Word} {g : Bool → Bool → Bool} (h : exec i s = aluOp f a b cv s)
    (hbit : ∀ k < 32, bit (f (s.reg b) cv) k = g (bit (s.reg b) k) (bit cv k)) :
    Completes i s (fun t => WritesDest a (t.reg a) s t ∧ KeepsHCV s t
      ∧ ∀ k < 32, bit (t.reg a) k = g (bit (s.reg b) k) (bit cv k)) := by
  obtain ⟨t, ht, hdest, hkeeps⟩ := completes_of_aluOp h rfl
  have ⟨hd, _⟩ := hdest
  rw [← hd] at hdest hbit
  exact ⟨t, ht, hdest, hkeeps, hbit⟩

theorem completes_and (h : exec i s = aluOp andValue a b cv s) :
    Completes i s (fun t => WritesDest a (t.reg a) s t ∧ KeepsHCV s t
      ∧ ∀ k < 32, bit (t.reg a) k = (bit (s.reg b) k && bit cv k)) :=
  completes_of_bitwise (g := and) h fun k _ => bit_andValue _ _ k

theorem completes_ann (h : exec i s = aluOp annValue a b cv s) :
    Completes i s (fun t => WritesDest a (t.reg a) s t ∧ KeepsHCV s t
      ∧ ∀ k < 32, bit (t.reg a) k = (bit (s.reg b) k && !bit cv k)) :=
  completes_of_bitwise (g := fun p q => p && !q) h fun _ hk => bit_annValue _ _ hk

theorem completes_ior (h : exec i s = aluOp iorValue a b cv s) :
    Completes i s (fun t => WritesDest a (t.reg a) s t ∧ KeepsHCV s t
      ∧ ∀ k < 32, bit (t.reg a) k = (bit (s.reg b) k || bit cv k)) :=
  completes_of_bitwise (g := or) h fun k _ => bit_iorValue _ _ k

theorem completes_xor (h : exec i s = aluOp xorValue a b cv s) :
    Completes i s (fun t => WritesDest a (t.reg a) s t ∧ KeepsHCV s t
      ∧ ∀ k < 32, bit (t.reg a) k = (bit (s.reg b) k != bit cv k)) :=
  completes_of_bitwise (g := bne) h fun k _ => bit_xorValue _ _ k

end Form

/-- Settles O14: each is the move of its source. -/
theorem movesWriteTheirSource : Obligations.MovesWriteTheirSource := fun _ _ _ v imm =>
  ⟨completes_of_moveOp rfl rfl, completes_of_moveOp rfl rfl, completes_of_moveOp rfl (immValue_eq v imm),
    completes_of_moveOp rfl (put_sixteen imm)⟩

/-- Settles O15: with shift 0 the new `Z` and `N` are those of the packed flags themselves. -/
theorem movFlagsPacksNZCV : Obligations.MovFlagsPacksNZCV := by
  intro s a
  refine ⟨_, rfl, ?_, keepsHCV_finish s a _, fun hshift => ?_⟩
  · rw [← packFlags_eq]
    exact writesDest_finish s a _
  · rw [State.finish_N, State.finish_Z, hshift]
    exact ⟨negativeFlag_packFlags_zero _ _ _ _, zeroFlag_packFlags_zero _ _ _ _⟩

/-- Settles O16: the two forms differ in their C-value only. -/
theorem shiftsAndRotateByFiveBits : Obligations.ShiftsAndRotateByFiveBits := by
  intro s a b c v imm cv
  have hl := lslValue_eq (s.reg b) cv
  have hr := asrValue_eq (s.reg b) cv
  have ho := rorValue_eq (s.reg b) cv
  constructor
  · rintro rfl
    exact ⟨completes_of_aluOp rfl hl, completes_of_aluOp rfl hr, completes_of_aluOp rfl ho⟩
  · intro hcv
    obtain rfl : cv = immValue v imm := hcv.trans (immValue_eq v imm).symm
    exact ⟨completes_of_aluOp rfl hl, completes_of_aluOp rfl hr, completes_of_aluOp rfl ho⟩

/-- Settles O17: the two forms differ in their C-value only. -/
theorem logicOperationsBitByBit : Obligations.LogicOperationsBitByBit := by
  intro s a b c v imm cv
  constructor
  · rintro rfl
    exact ⟨completes_and rfl, completes_ann rfl, completes_ior rfl, completes_xor rfl⟩
  · intro hcv
    obtain rfl : cv = immValue v imm := hcv.trans (immValue_eq v imm).symm
    exact ⟨completes_and rfl, completes_ann rfl, completes_ior rfl, completes_xor rfl⟩

end Sys2Proof.Machine
end

section
/-! PROOFS. The register class as one operation (40_regop_move_shift_logic.md R110 to R113, R127): a word's selector
chooses the shared operation, and each of them writes the destination, `Z` and `N`, and little else. -/

namespace Sys2Proof.Machine

/-! ### One equation for the class -/

/-- The shared operation a selector chooses (40_regop_move_shift_logic.md R110), on the value a move would write, the two
source operands and `u`. -/
def registerOp (op : AluSel) (u : Bool) (moved : Word) (a b : Reg) (cv : Word) (s : State) : Result State :=
  match op with
  | .mov => moveOp a moved s
  | .lsl => aluOp lslValue a b cv s
  | .asr => aluOp asrValue a b cv s
  | .ror => aluOp rorValue a b cv s
  | .and => aluOp andValue a b cv s
  | .ann => aluOp annValue a b cv s
  | .ior => aluOp iorValue a b cv s
  | .xor => aluOp xorValue a b cv s
  | .add => addOp (u && s.C) a b cv s
  | .sub => subOp (u && s.C) a b cv s
  | .mul => mulOp u a b cv s
  | .div => divOp u a b cv s
  | .fad | .fsb | .fml | .fdv => floatOp s

/-- The C-value of a register-class word (40_regop_move_shift_logic.md R111). -/
def cValue (w : Word) (s : State) : Word :=
  if bit w 30 then immValue (bit w 28) (field w 0 16) else s.reg (regOfBits (field w 0 4))

/-- The value a MOV word writes, by its mode (40_regop_move_shift_logic.md R114 to R118). -/
def movValue (w : Word) (s : State) : Word :=
  match bit w 30, bit w 29, bit w 28 with
  | false, true, false => s.H
  | false, true, true => packFlags s.N s.Z s.C s.V s.cfg.flagpackShift.val
  | true, true, _ => put (field w 0 16) 16
  | _, false, _ => cValue w s

theorem exec_regForm (u v : Bool) (op : AluSel) (a b c : Reg) (s : State) :
    exec (regForm u v op a b c) s
      = registerOp op u (if u then if v then packFlags s.N s.Z s.C s.V s.cfg.flagpackShift.val else s.H else s.reg c)
          a b (s.reg c) s := by
  cases op <;> cases u <;> cases v <;> rfl

theorem exec_immForm (u v : Bool) (op : AluSel) (a b : Reg) (imm : BitVec 16) (s : State) :
    exec (immForm u v op a b imm) s
      = registerOp op u (if u then put imm 16 else immValue v imm) a b (immValue v imm) s := by
  cases op <;> cases u <;> rfl

/-- What a register-class word does, in both formats. -/
theorem exec_registerClass {w : Word} (h31 : bit w 31 = false) (s : State) :
    exec (decodeWord w) s
      = registerOp (aluSelOfBits (field w 16 4)) (bit w 29) (movValue w s) (regOfBits (field w 24 4))
          (regOfBits (field w 20 4)) (cValue w s) s := by
  cases h30 : bit w 30
  · rw [decodeWord_reg h31 h30, exec_regForm]
    cases h29 : bit w 29 <;> cases h28 : bit w 28 <;> simp [movValue, cValue, h30, h29, h28]
  · rw [decodeWord_imm h31 h30, exec_immForm]
    cases h29 : bit w 29 <;> simp [movValue, cValue, h30, h29]

/-! ### What the class writes -/

/-- The state a register-class instruction with selector `op` and destination `a` may leave
(40_regop_move_shift_logic.md R127). -/
def RegisterWrites (op : AluSel) (a : Reg) (s t : State) : Prop :=
  ∃ d h c v, t = ((s.finish a d).setH h).setCV c v
    ∧ (h ≠ s.H → op = .mul ∨ op = .div) ∧ (c ≠ s.C ∨ v ≠ s.V → op = .add ∨ op = .sub)

/-- An operation that ends with its destination write alone stays inside every selector's frame. -/
theorem registerWrites_finish (op : AluSel) (s : State) (a : Reg) (d : Word) : RegisterWrites op a s (s.finish a d) :=
  ⟨d, s.H, s.C, s.V, rfl, by simp, by simp⟩

theorem registerWrites_setCV {op : AluSel} (hop : op = .add ∨ op = .sub) (s : State) (a : Reg) (d : Word) (c v : Bool) :
    RegisterWrites op a s ((s.finish a d).setCV c v) :=
  ⟨d, s.H, c, v, rfl, by simp, fun _ => hop⟩

theorem registerWrites_setH {op : AluSel} (hop : op = .mul ∨ op = .div) (s : State) (a : Reg) (d h : Word) :
    RegisterWrites op a s ((s.finish a d).setH h) :=
  ⟨d, h, s.C, s.V, rfl, fun _ => hop, by simp⟩

/-- Everything the class can leave (40_regop_move_shift_logic.md R110, R113, R127). -/
theorem registerOp_writes {op : AluSel} {u : Bool} {moved : Word} {a b : Reg} {cv : Word} {s t : State}
    (h : registerOp op u moved a b cv s = .next t) : RegisterWrites op a s t := by
  cases op with
  | mov => exact moveOp_eq_next.mp h ▸ registerWrites_finish _ s a _
  | lsl | asr | ror | and | ann | ior | xor => exact aluOp_eq_next.mp h ▸ registerWrites_finish _ s a _
  | add => exact addOp_eq_next.mp h ▸ registerWrites_setCV (.inl rfl) s a _ _ _
  | sub => exact subOp_eq_next.mp h ▸ registerWrites_setCV (.inr rfl) s a _ _ _
  | mul => exact mulOp_eq_next.mp h ▸ registerWrites_setH (.inl rfl) s a _ _
  | div =>
    rcases divOp_cases u a b cv s with ⟨_, _, e⟩ | ⟨_, e⟩ <;> cases e.symm.trans h
    exact registerWrites_setH (.inr rfl) s a _ _
  | fad | fsb | fml | fdv => cases h

/-! ### The class does not see memory -/

theorem divOp_setMem (uns : Bool) (a b : Reg) (cv : Word) (s : State) (m : Memory) :
    divOp uns a b cv (s.setMem m) = mapNext (fun t => t.setMem m) (divOp uns a b cv s) := by
  simp only [divOp, State.setMem_reg, State.setMem_cfg, State.setMem_pc]
  cases divideSignal s.cfg.divOverflow uns (s.reg b) cv s.pc <;> rfl

/-- No register-class instruction accesses memory (40_regop_move_shift_logic.md R127). -/
theorem registerOp_setMem (op : AluSel) (u : Bool) (moved : Word) (a b : Reg) (cv : Word) (s : State) (m : Memory) :
    registerOp op u moved a b cv (s.setMem m) = mapNext (fun t => t.setMem m) (registerOp op u moved a b cv s) := by
  cases op with
  | div => exact divOp_setMem u a b cv s m
  | _ => rfl

/-! ### A register-class word that completes -/

/-- A word has a selector exactly when its field holds the selector's number (30_encoding.md R90). -/
theorem aluSelOfBits_eq_iff {f : BitVec 4} {op : AluSel} : aluSelOfBits f = op ↔ f = aluSelBits op :=
  ⟨fun h => by rw [← h, aluSelBits_ofBits], fun h => by rw [h, aluSelOfBits_bits]⟩

section RegisterWord

variable {w : Word} {s t : State}

theorem registerWrites_of_exec (h31 : bit w 31 = false) (h : exec (decodeWord w) s = .next t) :
    RegisterWrites (aluSelOfBits (field w 16 4)) (regOfBits (field w 24 4)) s t :=
  registerOp_writes ((exec_registerClass h31 s).symm.trans h)

/-- With other contents of memory the word completes as well, and carries them along: its operands are not in memory. -/
theorem exec_setMem_of_registerClass (h31 : bit w 31 = false) (h : exec (decodeWord w) s = .next t) (m : Memory) :
    exec (decodeWord w) (s.setMem m) = .next (t.setMem m) := by
  have hoperands : exec (decodeWord w) (s.setMem m) = mapNext (fun t => t.setMem m) (exec (decodeWord w) s) := by
    rw [exec_registerClass h31, exec_registerClass h31]
    exact registerOp_setMem _ _ _ _ _ _ s m
  rw [hoperands, h, mapNext_next]

/-- A word outside the branch class never closes a unit by itself, and leaves it open below the cap
(44_unit_builder.md R225, R229). -/
theorem count_of_not_branch (hw : isBranchWord w = false) {b : Builder} (hb : b.phase = .opened) :
    (b.count w).phase ≠ .closed .branchExit ∧ (b.n + 1 < b.max → (b.count w).phase = .opened) := by
  rcases count_cases b w with ⟨hbranch, -⟩ | ⟨-, hcap, e⟩ | ⟨-, -, e⟩
  · simp [hw] at hbranch
  · rw [e]; exact ⟨nofun, fun hlt => absurd hcap (Nat.not_le_of_lt hlt)⟩
  · rw [e]; exact ⟨by simp [hb], fun _ => hb⟩

end RegisterWord

/-- Settles O25: the frame is what the class can leave, and only branch words end a unit by themselves. -/
theorem registerClassFrame : Obligations.RegisterClassFrame := by
  intro w s t h31 h
  obtain ⟨d, hi, c, v, rfl, hH, hCV⟩ := registerWrites_of_exec h31 h
  simp only [aluSelOfBits_eq_iff] at hH hCV
  refine ⟨fun r hr => by simp [hr], fun hne => ?_, fun hne => ?_, rfl, rfl, exec_setMem_of_registerClass h31 h,
    fun b hb => count_of_not_branch (by simp [isBranchWord, h31]) hb⟩
  · exact (hH hne).imp (congrArg BitVec.toNat) (congrArg BitVec.toNat)
  · exact (hCV hne).imp (congrArg BitVec.toNat) (congrArg BitVec.toNat)

/-- Zero is not negative (40_regop_move_shift_logic.md R113). -/
theorem not_zeroFlag_and_negativeFlag (d : Word) : ¬(zeroFlag d = true ∧ negativeFlag d = true) := by
  rintro ⟨hz, hn⟩
  obtain rfl : d = 0 := by simpa [zeroFlag] using hz
  exact absurd hn (by decide)

/-- Settles O26: the flags are those of the value `d` written to the destination, whatever becomes of `H`. -/
theorem zeroAndNegativeFromTheDestination : Obligations.ZeroAndNegativeFromTheDestination := by
  intro w s t h31 h
  obtain ⟨d, hi, c, v, rfl, -, -⟩ := registerWrites_of_exec h31 h
  have hreg : (((s.finish (regOfBits (field w 24 4)) d).setH hi).setCV c v).reg (regOfBits (field w 24 4)) = d := by
    simp
  rw [hreg]
  exact ⟨zeroFlag_eq d, rfl, not_zeroFlag_and_negativeFlag d⟩

end Sys2Proof.Machine
end

section
/-! PROOFS. The words the spec's examples print (40_regop_move_shift_logic.md R114 to 43_branch_ops.md R199). -/

namespace Sys2Proof

/-- A word that is an instruction's own but for its ignored bits decodes to it (30_encoding.md R95, R100). -/
theorem decodeWord_of_encodeWord {w : Word} {i : Instr} (h : encodeWord i = w &&& ~~~ignoredBits w) :
    decodeWord w = i := by
  rw [← decodeWord_and_not_ignoredBits, ← h, decodeWord_encodeWord]

/-- Settles O5: each word is the one its instruction encodes to, up to the bits it ignores. -/
theorem sampleWordsDecode : Obligations.SampleWordsDecode := by
  and_intros <;> exact decodeWord_of_encodeWord (by decide)

end Sys2Proof
end

section
/-! PROOFS. Add and subtract, without and with carry (41_regop_arith.md R140 to R146): the results as numbers, what the
tests against the first operand and the sign rules say of the exact result, and 64-bit chains. -/

namespace Sys2Proof.Machine

/-- What holds of the state an instruction leaves may be weakened. -/
theorem Completes.imp {i : Instr} {s : State} {P Q : State → Prop} (h : Completes i s P) (hPQ : ∀ t, P t → Q t) :
    Completes i s Q :=
  let ⟨t, ht, hP⟩ := h
  ⟨t, ht, hPQ t hP⟩

/-! ### The results as numbers -/

theorem toNat_carryIn (cin : Bool) : (put (BitVec.ofBool cin) 0).toNat = cin.toNat := by cases cin <;> rfl

/-- The sum of ADD and ADC (41_regop_arith.md R140, R142). -/
theorem addValue_eq (bv cv : Word) (cin : Bool) :
    addValue bv cv cin = BitVec.ofNat 32 (bv.toNat + cv.toNat + cin.toNat) := by
  apply BitVec.eq_of_toNat_eq
  simp [addValue, toNat_carryIn]

/-- The difference of SUB and SBC (41_regop_arith.md R144, R146). -/
theorem subValue_eq (bv cv : Word) (cin : Bool) :
    subValue bv cv cin = BitVec.ofInt 32 ((bv.toNat : Int) - cv.toNat - cin.toNat) := by
  apply BitVec.eq_of_toNat_eq
  have hcin := cin.toNat_lt
  simp only [subValue, BitVec.toNat_sub, toNat_carryIn, BitVec.toNat_ofInt]
  omega

/-! ### The whole effect -/

/-- The sign rule of R141: the operands have one sign and the sum the other. -/
theorem addOverflow_iff (d bv cv : Word) : addOverflow d bv cv = true ↔ bv.msb = cv.msb ∧ d.msb ≠ bv.msb := by
  rw [addOverflow_eq]
  cases d.msb <;> cases bv.msb <;> cases cv.msb <;> decide

/-- The sign rule of R145: the operands differ in sign and the difference has the sign of the second. -/
theorem subOverflow_iff (d bv cv : Word) : subOverflow d bv cv = true ↔ bv.msb ≠ cv.msb ∧ d.msb = cv.msb := by
  rw [subOverflow_eq]
  cases d.msb <;> cases bv.msb <;> cases cv.msb <;> decide

section Form

variable {i : Instr} {a b : Reg} {cin : Bool} {cv : Word} {s : State}

theorem completes_of_addOp (h : exec i s = addOp cin a b cv s) :
    Completes i s (AddEffect cin.toNat a (s.reg b) cv s) := by
  refine ⟨_, h, ?_⟩
  simp only [AddEffect, ← addValue_eq]
  exact ⟨writesDest_finish_setCV s a _ _ _, rfl, addCarry_eq _ _, addOverflow_iff _ _ _⟩

theorem completes_of_subOp (h : exec i s = subOp cin a b cv s) :
    Completes i s (SubEffect cin.toNat a (s.reg b) cv s) := by
  refine ⟨_, h, ?_⟩
  simp only [SubEffect, ← subValue_eq]
  exact ⟨writesDest_finish_setCV s a _ _ _, rfl, subCarry_eq _ _, subOverflow_iff _ _ _⟩

end Form

/-- Settles O18: the two forms differ in their C-value only, ADD and ADC in their carry-in. -/
theorem addAndAdcWriteAllFlags : Obligations.AddAndAdcWriteAllFlags := by
  intro s a b c v imm
  rw [← immValue_eq]
  exact ⟨completes_of_addOp (cin := false) rfl, completes_of_addOp (cin := false) rfl, completes_of_addOp rfl,
    completes_of_addOp rfl⟩

/-- Settles O19: the two forms differ in their C-value only, SUB and SBC in their borrow-in. -/
theorem subAndSbcWriteAllFlags : Obligations.SubAndSbcWriteAllFlags := by
  intro s a b c v imm
  rw [← immValue_eq]
  exact ⟨completes_of_subOp (cin := false) rfl, completes_of_subOp (cin := false) rfl, completes_of_subOp rfl,
    completes_of_subOp rfl⟩

/-! ### The flags and the exact result

`C` tests the wrapped result against the first operand. That is the carry or borrow of the exact result unless the second
operand and the carry-in make 2^32 together, which wraps back to the first operand (41_regop_arith.md R141, R145). -/

/-- The second operand with the carry-in reaches 2^32 only where R141 (b) and R145 (b) say. -/
theorem add_carryIn_lt {cin : Bool} {cv : Word} (h : ¬(cin = true ∧ cv = 0xFFFFFFFF)) :
    cv.toNat + cin.toNat < 2 ^ 32 := by
  cases cin
  · simpa using cv.isLt
  · have hcv : cv.toNat ≠ 0xFFFFFFFF := fun e => h ⟨rfl, BitVec.eq_of_toNat_eq e⟩
    have := cv.isLt
    simp only [Bool.toNat_true]
    omega

/-- There they make exactly 2^32. -/
theorem add_carryIn_eq {cin : Bool} {cv : Word} (h : cin = true ∧ cv = 0xFFFFFFFF) :
    cv.toNat + cin.toNat = 2 ^ 32 := by
  obtain ⟨rfl, rfl⟩ := h
  decide

/-- A sum has wrapped exactly when it is below the operand it was added to. -/
theorem toNat_sum_lt_iff (bv : Word) {n : Nat} (hn : n < 2 ^ 32) :
    (BitVec.ofNat 32 (bv.toNat + n) : Word).toNat < bv.toNat ↔ 2 ^ 32 ≤ bv.toNat + n := by
  have := bv.isLt
  rw [BitVec.toNat_ofNat]
  omega

/-- A difference has wrapped exactly when it is above the operand it was taken from. -/
theorem lt_toNat_difference_iff (bv : Word) {n : Nat} (hn : n < 2 ^ 32) :
    bv.toNat < (BitVec.ofInt 32 ((bv.toNat : Int) - n) : Word).toNat ↔ bv.toNat < n := by
  have := bv.isLt
  rw [BitVec.toNat_ofInt]
  omega

/-- The sign rule of addition finds exactly the sums outside the signed range (41_regop_arith.md R141 (c)). -/
theorem add_sign_rule_iff (bv cv : Word) (cin : Bool) :
    (bv.msb = cv.msb ∧ (BitVec.ofNat 32 (bv.toNat + cv.toNat + cin.toNat) : Word).msb ≠ bv.msb) ↔
      bv.toInt + cv.toInt + cin.toNat < -2 ^ 31 ∨ 2 ^ 31 ≤ bv.toInt + cv.toInt + cin.toNat := by
  have hb := bv.isLt
  have hc := cv.isLt
  have hcin := cin.toNat_lt
  simp only [ne_eq, BitVec.msb_eq_decide, decide_eq_decide, BitVec.toInt_eq_toNat_cond, BitVec.toNat_ofNat]
  split <;> split <;> omega

/-- The sign rule of subtraction finds exactly the differences outside the signed range (41_regop_arith.md R145 (c)). -/
theorem sub_sign_rule_iff (bv cv : Word) (cin : Bool) :
    (bv.msb ≠ cv.msb ∧ (BitVec.ofInt 32 ((bv.toNat : Int) - cv.toNat - cin.toNat) : Word).msb = cv.msb) ↔
      bv.toInt - cv.toInt - cin.toNat < -2 ^ 31 ∨ 2 ^ 31 ≤ bv.toInt - cv.toInt - cin.toNat := by
  have hb := bv.isLt
  have hc := cv.isLt
  have hcin := cin.toNat_lt
  simp only [ne_eq, BitVec.msb_eq_decide, decide_eq_decide, BitVec.toInt_eq_toNat_cond, BitVec.toNat_ofInt]
  split <;> split <;> omega

section Effect

variable {cin : Bool} {a : Reg} {bv cv : Word} {s t : State}

theorem AddEffect.carry (h : AddEffect cin.toNat a bv cv s t) (hcv : ¬(cin = true ∧ cv = 0xFFFFFFFF)) :
    t.C = decide (2 ^ 32 ≤ bv.toNat + cv.toNat + cin.toNat) := by
  obtain ⟨-, -, hC, -⟩ := h
  rw [hC, decide_eq_decide, Nat.add_assoc]
  exact toNat_sum_lt_iff bv (add_carryIn_lt hcv)

/-- Adding 2^32 changes nothing and shows no carry (41_regop_arith.md R141 (b)). -/
theorem AddEffect.wrapped (h : AddEffect cin.toNat a bv cv s t) (hcv : cin = true ∧ cv = 0xFFFFFFFF) :
    t.C = false ∧ t.reg a = bv := by
  obtain ⟨⟨hd, -⟩, -, hC, -⟩ := h
  have hwrap : BitVec.ofNat 32 (bv.toNat + cv.toNat + cin.toNat) = bv := by
    apply BitVec.eq_of_toNat_eq
    have := bv.isLt
    have := add_carryIn_eq hcv
    rw [BitVec.toNat_ofNat]
    omega
  rw [hwrap] at hd hC
  exact ⟨by simpa using hC, hd⟩

theorem AddEffect.overflow (h : AddEffect cin.toNat a bv cv s t) :
    t.V = decide (bv.toInt + cv.toInt + cin.toNat < -2 ^ 31 ∨ 2 ^ 31 ≤ bv.toInt + cv.toInt + cin.toNat) := by
  obtain ⟨-, -, -, hV⟩ := h
  rw [Bool.eq_iff_iff, decide_eq_true_iff]
  exact hV.trans (add_sign_rule_iff bv cv cin)

theorem SubEffect.borrow (h : SubEffect cin.toNat a bv cv s t) (hcv : ¬(cin = true ∧ cv = 0xFFFFFFFF)) :
    t.C = decide (bv.toNat < cv.toNat + cin.toNat) := by
  obtain ⟨-, -, hC, -⟩ := h
  rw [hC, decide_eq_decide, Int.sub_sub]
  exact lt_toNat_difference_iff bv (add_carryIn_lt hcv)

/-- Subtracting 2^32 changes nothing and shows no borrow (41_regop_arith.md R145 (b)). -/
theorem SubEffect.wrapped (h : SubEffect cin.toNat a bv cv s t) (hcv : cin = true ∧ cv = 0xFFFFFFFF) :
    t.C = false ∧ t.reg a = bv := by
  obtain ⟨⟨hd, -⟩, -, hC, -⟩ := h
  have hwrap : BitVec.ofInt 32 ((bv.toNat : Int) - cv.toNat - cin.toNat) = bv := by
    apply BitVec.eq_of_toNat_eq
    have := bv.isLt
    have := add_carryIn_eq hcv
    rw [BitVec.toNat_ofInt]
    omega
  rw [hwrap] at hd hC
  exact ⟨by simpa using hC, hd⟩

theorem SubEffect.overflow (h : SubEffect cin.toNat a bv cv s t) :
    t.V = decide (bv.toInt - cv.toInt - cin.toNat < -2 ^ 31 ∨ 2 ^ 31 ≤ bv.toInt - cv.toInt - cin.toNat) := by
  obtain ⟨-, -, -, hV⟩ := h
  rw [Bool.eq_iff_iff, decide_eq_true_iff]
  exact hV.trans (sub_sign_rule_iff bv cv cin)

end Effect

/-- Settles O27: ADD is the addition with carry-in 0, where the exception to the carry cannot arise. -/
theorem addFlagsAreTrueCarryAndOverflow : Obligations.AddFlagsAreTrueCarryAndOverflow := by
  intro s a b c v imm cv plain withCarry
  have hplain {i : Instr} (h : exec i s = addOp false a b cv s) : Completes i s plain :=
    (completes_of_addOp h).imp fun t ht => ⟨ht.carry (by simp), by simpa using ht.overflow⟩
  have hcarry {i : Instr} (h : exec i s = addOp s.C a b cv s) : Completes i s withCarry :=
    (completes_of_addOp h).imp fun t ht => ⟨ht.carry, ht.wrapped, ht.overflow⟩
  constructor
  · rintro rfl
    exact ⟨hplain rfl, hcarry rfl⟩
  · intro hcv
    obtain rfl : cv = immValue v imm := hcv.trans (immValue_eq v imm).symm
    exact ⟨hplain rfl, hcarry rfl⟩

/-- Settles O28: SUB is the subtraction with borrow-in 0, where the exception to the borrow cannot arise. -/
theorem subFlagsAreTrueBorrowAndOverflow : Obligations.SubFlagsAreTrueBorrowAndOverflow := by
  intro s a b c v imm cv plain withCarry
  have hplain {i : Instr} (h : exec i s = subOp false a b cv s) : Completes i s plain :=
    (completes_of_subOp h).imp fun t ht => ⟨ht.borrow (by simp), by simpa using ht.overflow⟩
  have hborrow {i : Instr} (h : exec i s = subOp s.C a b cv s) : Completes i s withCarry :=
    (completes_of_subOp h).imp fun t ht => ⟨ht.borrow, ht.wrapped, ht.overflow⟩
  constructor
  · rintro rfl
    exact ⟨hplain rfl, hborrow rfl⟩
  · intro hcv
    obtain rfl : cv = immValue v imm := hcv.trans (immValue_eq v imm).symm
    exact ⟨hplain rfl, hborrow rfl⟩

/-! ### Chains of 64 bits -/

/-- A pair of words is the number with the first as its high half. -/
theorem toNat_pair (hi lo : Word) : (hi ++ lo : BitVec 64).toNat = hi.toNat * 2 ^ 32 + lo.toNat := by
  rw [BitVec.toNat_append, ← Nat.shiftLeft_add_eq_or_of_lt lo.isLt, Nat.shiftLeft_eq]

/-- Adding pairs adds the low words, and the high words with the carry. -/
theorem pair_add (x2 x1 y2 y1 : Word) :
    (BitVec.ofNat 32 (x2.toNat + y2.toNat + (decide (2 ^ 32 ≤ x1.toNat + y1.toNat)).toNat)
        ++ BitVec.ofNat 32 (x1.toNat + y1.toNat) : BitVec 64) = (x2 ++ x1) + (y2 ++ y1) := by
  apply BitVec.eq_of_toNat_eq
  have := x1.isLt
  have := y1.isLt
  simp only [toNat_pair, BitVec.toNat_add, BitVec.toNat_ofNat, Bool.toNat, Bool.cond_decide]
  split <;> omega

/-- Subtracting pairs subtracts the low words, and the high words with the borrow. -/
theorem pair_sub (x2 x1 y2 y1 : Word) :
    (BitVec.ofInt 32 ((x2.toNat : Int) - y2.toNat - (decide (x1.toNat < y1.toNat)).toNat)
        ++ BitVec.ofInt 32 ((x1.toNat : Int) - y1.toNat) : BitVec 64) = (x2 ++ x1) - (y2 ++ y1) := by
  apply BitVec.eq_of_toNat_eq
  have := x1.isLt
  have := y1.isLt
  have := x2.isLt
  have := y2.isLt
  simp only [toNat_pair, BitVec.toNat_sub, BitVec.toNat_ofInt, Bool.toNat, Bool.cond_decide]
  split <;> omega

/-- Settles O30: the low result and the high sources are untouched by the other instruction, and `C` carries between
them the true carry or borrow of the low words. -/
theorem carryChainsAddSixtyFourBits : Obligations.CarryChainsAddSixtyFourBits := by
  intro s lo hi b1 c1 b2 c2 hhi hb2 hc2
  constructor
  · refine (completes_of_addOp (cin := false) rfl).imp fun t ht => (completes_of_addOp rfl).imp fun u hu => ?_
    have hcarry := ht.carry (by simp)
    obtain ⟨⟨htlo, -, -, -, htregs, -⟩, -⟩ := ht
    obtain ⟨⟨huhi, -, -, -, huregs, -⟩, -⟩ := hu
    rw [huhi, huregs lo hhi, htlo, htregs b2 hb2.symm, htregs c2 hc2.symm, hcarry]
    exact pair_add _ _ _ _
  · refine (completes_of_subOp (cin := false) rfl).imp fun t ht => (completes_of_subOp rfl).imp fun u hu => ?_
    have hborrow := ht.borrow (by simp)
    obtain ⟨⟨htlo, -, -, -, htregs, -⟩, -⟩ := ht
    obtain ⟨⟨huhi, -, -, -, huregs, -⟩, -⟩ := hu
    rw [huhi, huregs lo hhi, htlo, htregs b2 hb2.symm, htregs c2 hc2.symm, hborrow]
    simpa using pair_sub (s.reg b2) (s.reg b1) (s.reg c2) (s.reg c1)

end Sys2Proof.Machine
end

section
/-! PROOFS. Multiply and divide (41_regop_arith.md R148 to R155): the product as one number, the truncated quotient and
its remainder, and where a divide raises a signal. -/

namespace Sys2Proof.Machine

/-- The destination's value read back off the state left. -/
theorem WritesDest.self {a : Reg} {d : Word} {s t : State} (h : WritesDest a d s t) : WritesDest a (t.reg a) s t := by
  have ⟨hd, _⟩ := h
  rwa [hd]

/-- The signed value of an immediate's C-value is the number the immediate stands for (30_encoding.md R87). -/
theorem toInt_immValue (v : Bool) (imm : BitVec 16) : (immValue v imm).toInt = immNumber v imm := by
  cases v
  · have := imm.isLt
    simp only [immValue, immNumber, Bool.false_eq_true, if_false, BitVec.toInt_eq_toNat_cond, BitVec.toNat_setWidth]
    split <;> omega
  · exact BitVec.toInt_signExtend_of_le (by decide)

/-! ### The product -/

/-- The two halves of a product make its unsigned value. -/
theorem toNat_halves (p : BitVec 64) : (highHalf p).toNat * 2 ^ 32 + (lowHalf p).toNat = p.toNat := by
  have := p.isLt
  simp only [highHalf, lowHalf, BitVec.extractLsb'_toNat, Nat.shiftRight_eq_div_pow]
  omega

/-- With the high half read as signed they make its signed value. -/
theorem toInt_halves (p : BitVec 64) : (highHalf p).toInt * 2 ^ 32 + (lowHalf p).toNat = p.toInt := by
  have := toNat_halves p
  have := (highHalf p).isLt
  have := (lowHalf p).isLt
  rw [BitVec.toInt_eq_toNat_cond, BitVec.toInt_eq_toNat_cond]
  split <;> split <;> omega

/-- A signed product fits in 64 bits (41_regop_arith.md R148). -/
theorem toInt_product (bv cv : Word) : (product false bv cv).toInt = bv.toInt * cv.toInt := by
  have hle : bv.toInt * cv.toInt ≤ 2 ^ 62 := BitVec.toInt_mul_toInt_le
  have hge : -2 ^ 62 ≤ bv.toInt * cv.toInt := BitVec.le_toInt_mul_toInt
  exact BitVec.toInt_ofInt_eq_self (by decide) (by omega) (by omega)

/-- An unsigned product fits in 64 bits (41_regop_arith.md R149). -/
theorem toNat_product (bv cv : Word) : (product true bv cv).toNat = bv.toNat * cv.toNat := by
  have hlt : bv.toNat * cv.toNat < 2 ^ 32 * 2 ^ 32 := Nat.mul_lt_mul'' bv.isLt cv.isLt
  exact (BitVec.toNat_ofNat _ _).trans (Nat.mod_eq_of_lt hlt)

section Multiply

variable {i : Instr} {a b : Reg} {uns : Bool} {cv : Word} {s : State}

theorem completes_of_mulOp (h : exec i s = mulOp uns a b cv s) :
    Completes i s (fun t => WritesDest a (t.reg a) s t ∧ t.C = s.C ∧ t.V = s.V
      ∧ t.reg a = lowHalf (product uns (s.reg b) cv) ∧ t.H = highHalf (product uns (s.reg b) cv)) :=
  ⟨_, h, (writesDest_finish_setH s a _ _).self, rfl, rfl, by simp, rfl⟩

theorem completes_of_signed_mulOp (h : exec i s = mulOp false a b cv s) :
    Completes i s (fun t => WritesDest a (t.reg a) s t ∧ t.C = s.C ∧ t.V = s.V
      ∧ t.H.toInt * 2 ^ 32 + (t.reg a).toNat = (s.reg b).toInt * cv.toInt) :=
  (completes_of_mulOp h).imp fun _ ⟨hdest, hC, hV, hlow, hhigh⟩ =>
    ⟨hdest, hC, hV, by rw [hlow, hhigh, toInt_halves, toInt_product]⟩

theorem completes_of_unsigned_mulOp (h : exec i s = mulOp true a b cv s) :
    Completes i s (fun t => WritesDest a (t.reg a) s t ∧ t.C = s.C ∧ t.V = s.V
      ∧ t.H.toNat * 2 ^ 32 + (t.reg a).toNat = (s.reg b).toNat * cv.toNat) :=
  (completes_of_mulOp h).imp fun _ ⟨hdest, hC, hV, hlow, hhigh⟩ =>
    ⟨hdest, hC, hV, by rw [hlow, hhigh, toNat_halves, toNat_product]⟩

end Multiply

/-- Settles O20: no product is lost, since either kind fits in 64 bits. -/
theorem multiplyKeepsTheWholeProduct : Obligations.MultiplyKeepsTheWholeProduct := by
  intro s a b c v imm
  rw [← immValue_eq, ← toInt_immValue]
  exact ⟨completes_of_signed_mulOp rfl, completes_of_signed_mulOp rfl, completes_of_unsigned_mulOp rfl,
    completes_of_unsigned_mulOp rfl⟩

/-! ### The quotient and the remainder -/

/-- The signed quotient fits in 32 bits but in the overflow case (41_regop_arith.md R150, R155). -/
theorem toInt_quotient {bv cv : Word} (h : ¬(bv = 0x80000000 ∧ cv = 0xFFFFFFFF)) :
    (quotient false bv cv).toInt = bv.toInt.tdiv cv.toInt := by
  have hdiv : (bv.sdiv cv).toInt = bv.toInt.tdiv cv.toInt :=
    BitVec.toInt_sdiv_of_ne_or_ne bv cv (not_and_or.mp h)
  have hquotient : quotient false bv cv = bv.sdiv cv := by
    rw [← BitVec.ofInt_toInt (x := bv.sdiv cv), hdiv]
    rfl
  rw [hquotient, hdiv]

theorem toInt_remainder (bv cv : Word) : (remainder false bv cv).toInt = bv.toInt.tmod cv.toInt := by
  have hremainder : remainder false bv cv = bv.srem cv := by
    rw [← BitVec.ofInt_toInt (x := bv.srem cv), BitVec.toInt_srem]
    rfl
  rw [hremainder, BitVec.toInt_srem]

theorem natAbs_toInt_remainder_lt (bv : Word) {cv : Word} (hcv : cv ≠ 0) :
    (remainder false bv cv).toInt.natAbs < cv.toInt.natAbs := by
  have hne : cv.toInt ≠ 0 := fun e => hcv (BitVec.toInt_inj.mp e)
  rw [toInt_remainder, Int.natAbs_tmod]
  exact Nat.mod_lt _ (Int.natAbs_pos.mpr hne)

/-- A signed remainder that is not zero has the sign of the dividend (41_regop_arith.md R150, R152). -/
theorem remainder_zero_or_sign (bv cv : Word) :
    remainder false bv cv = 0 ∨ ((remainder false bv cv).toInt < 0 ↔ bv.toInt < 0) := by
  have hsign := Int.sign_tmod bv.toInt cv.toInt
  rw [← toInt_remainder] at hsign
  split at hsign
  · exact .inl (BitVec.toInt_inj.mp (Int.sign_eq_zero_iff_zero.mp hsign))
  · exact .inr (by rw [← Int.sign_eq_neg_one_iff_neg, hsign, Int.sign_eq_neg_one_iff_neg])

theorem toNat_quotient (bv cv : Word) : (quotient true bv cv).toNat = bv.toNat / cv.toNat :=
  (BitVec.toNat_ofNat _ _).trans (Nat.mod_eq_of_lt (Nat.lt_of_le_of_lt (Nat.div_le_self _ _) bv.isLt))

theorem toNat_remainder (bv cv : Word) : (remainder true bv cv).toNat = bv.toNat % cv.toNat :=
  (BitVec.toNat_ofNat _ _).trans (Nat.mod_eq_of_lt (Nat.lt_of_le_of_lt (Nat.mod_le _ _) bv.isLt))

/-! ### A divide that completes, and one that raises -/

section Divide

variable {i : Instr} {a b : Reg} {uns : Bool} {cv : Word} {s : State}

/-- A divide with a signal stops with it (41_regop_arith.md R154, R155). -/
theorem exec_of_divideSignal {g : Fault} (h : exec i s = divOp uns a b cv s)
    (hsignal : divideSignal s.cfg.divOverflow uns (s.reg b) cv s.pc = some g) : exec i s = .fault g := by
  rcases divOp_cases uns a b cv s with ⟨g', hg', hfault⟩ | ⟨hnone, -⟩
  · obtain rfl : g' = g := Option.some.inj (hg'.symm.trans hsignal)
    exact h.trans hfault
  · exact nomatch hnone.symm.trans hsignal

/-- A divide without a signal completes with its quotient and its remainder. -/
theorem completes_of_divOp (h : exec i s = divOp uns a b cv s)
    (hsignal : divideSignal s.cfg.divOverflow uns (s.reg b) cv s.pc = none) :
    Completes i s (fun t => WritesDest a (quotient uns (s.reg b) cv) s t ∧ t.H = remainder uns (s.reg b) cv
      ∧ t.C = s.C ∧ t.V = s.V) := by
  rcases divOp_cases uns a b cv s with ⟨g, hg, -⟩ | ⟨-, hnext⟩
  · exact nomatch hg.symm.trans hsignal
  · exact ⟨_, h.trans hnext, writesDest_finish_setH s a _ _, rfl, rfl, rfl⟩

theorem completes_of_signed_divOp (h : exec i s = divOp false a b cv s) (hcv : cv ≠ 0)
    (hfits : ¬(s.reg b = 0x80000000 ∧ cv = 0xFFFFFFFF)) :
    Completes i s (SignedDivideEffect a (s.reg b) cv s) := by
  have hsignal : divideSignal s.cfg.divOverflow false (s.reg b) cv s.pc = none :=
    divideSignal_eq_none.mpr ⟨hcv, fun ⟨_, _, hpair⟩ => hfits hpair⟩
  refine (completes_of_divOp h hsignal).imp fun t ⟨hdest, hH, hC, hV⟩ => ?_
  have ⟨hd, _⟩ := hdest
  unfold SignedDivideEffect
  rw [hd, hH, toInt_quotient hfits]
  refine ⟨hdest, hC, hV, ?_, natAbs_toInt_remainder_lt _ hcv, remainder_zero_or_sign _ _⟩
  rw [toInt_remainder, Int.mul_tdiv_add_tmod]

theorem completes_of_unsigned_divOp (h : exec i s = divOp true a b cv s) (hcv : cv ≠ 0) :
    Completes i s (UnsignedDivideEffect a (s.reg b) cv s) := by
  have hsignal : divideSignal s.cfg.divOverflow true (s.reg b) cv s.pc = none :=
    divideSignal_eq_none.mpr ⟨hcv, nofun⟩
  have hpos : 0 < cv.toNat := Nat.pos_of_ne_zero fun e => hcv (BitVec.eq_of_toNat_eq e)
  refine (completes_of_divOp h hsignal).imp fun t ⟨hdest, hH, hC, hV⟩ => ?_
  have ⟨hd, _⟩ := hdest
  unfold UnsignedDivideEffect
  rw [hd, hH, toNat_quotient, toNat_remainder]
  exact ⟨hdest, hC, hV, (Nat.div_add_mod _ _).symm, Nat.mod_lt _ hpos⟩

/-- A divide by zero stops, signed or unsigned, whatever DIV_OVERFLOW is (41_regop_arith.md R154). -/
theorem exec_of_divOp_zero (h : exec i s = divOp uns a b cv s) (hcv : cv = 0) :
    exec i s = .fault (.divideByZero s.pc) :=
  exec_of_divideSignal h (divideSignal_eq_some.mpr (.inl ⟨hcv, rfl⟩))

/-- Under trap the overflow pair stops (41_regop_arith.md R155). -/
theorem exec_of_divOp_overflow (h : exec i s = divOp false a b cv s) (hb : s.reg b = 0x80000000)
    (hcv : cv = 0xFFFFFFFF) (htrap : s.cfg.divOverflow = .trap) : exec i s = .fault (.divideOverflow s.pc) :=
  exec_of_divideSignal h (divideSignal_eq_some.mpr (.inr ⟨by simp [hcv], ⟨rfl, htrap, hb, hcv⟩, rfl⟩))

/-- Under wrap the overflow pair gives 2^31 modulo 2^32, remainder 0 (41_regop_arith.md R155). -/
theorem completes_of_divOp_overflow (h : exec i s = divOp false a b cv s) (hb : s.reg b = 0x80000000)
    (hcv : cv = 0xFFFFFFFF) (hwrap : s.cfg.divOverflow = .wrap) :
    Completes i s (fun t => WritesDest a 0x80000000 s t ∧ t.H = 0 ∧ t.C = s.C ∧ t.V = s.V) := by
  have hsignal : divideSignal s.cfg.divOverflow false (s.reg b) cv s.pc = none :=
    divideSignal_eq_none.mpr ⟨by simp [hcv], by simp [hwrap]⟩
  have hquotient : quotient false 0x80000000 0xFFFFFFFF = 0x80000000 := by decide
  have hremainder : remainder false 0x80000000 0xFFFFFFFF = 0 := by decide
  have hcompletes := completes_of_divOp h hsignal
  rwa [hb, hcv, hquotient, hremainder] at hcompletes

end Divide

/-- Settles O21: the two forms differ in their C-value only. -/
theorem divideTruncatesTowardZero : Obligations.DivideTruncatesTowardZero := by
  intro s a b c v imm cv hcv
  constructor
  · rintro rfl
    exact ⟨completes_of_signed_divOp rfl hcv, completes_of_unsigned_divOp rfl hcv⟩
  · intro himm
    obtain rfl : cv = immValue v imm := himm.trans (immValue_eq v imm).symm
    exact ⟨completes_of_signed_divOp rfl hcv, completes_of_unsigned_divOp rfl hcv⟩

/-- Settles O22: the immediate 0 is 0 with either extension. -/
theorem divideByZeroRaises : Obligations.DivideByZeroRaises := by
  intro s a b c v
  have himm : immValue v 0 = 0 := by cases v <;> decide
  exact ⟨fun hc => ⟨exec_of_divOp_zero rfl hc, exec_of_divOp_zero rfl hc⟩, exec_of_divOp_zero rfl himm,
    exec_of_divOp_zero rfl himm⟩

/-- Settles O23: the immediate 0xFFFF, sign-extended, is the divisor of the overflow pair. -/
theorem divideOverflowFollowsTheParameter : Obligations.DivideOverflowFollowsTheParameter := by
  intro s a b c hb
  have himm : immValue true 0xFFFF = 0xFFFFFFFF := by decide
  exact ⟨fun htrap => ⟨fun hc => exec_of_divOp_overflow rfl hb hc htrap, exec_of_divOp_overflow rfl hb himm htrap⟩,
    fun hwrap => ⟨fun hc => completes_of_divOp_overflow rfl hb hc hwrap,
      completes_of_divOp_overflow rfl hb himm hwrap⟩⟩

end Sys2Proof.Machine
end

section
/-! PROOFS. The floating-point placeholders (41_regop_arith.md R160 to R164): which words decode to one, and that each
stops where it is executed and where it is translated. -/

namespace Sys2Proof.Machine

/-- The placeholders of both formats. -/
def floatingPointInstrs : List Instr := [.fadReg, .fadImm, .fsbReg, .fsbImm, .fmlReg, .fmlImm, .fdvReg, .fdvImm]

/-- The selectors 12 to 15 are those of the placeholders (30_encoding.md R90). -/
theorem aluSelOfBits_floating {f : BitVec 4} (h : 12 ≤ f.toNat) : aluSelOfBits f ∈ [.fad, .fsb, .fml, .fdv] := by
  revert f
  decide

/-- With such a selector the other fields do not matter (41_regop_arith.md R164). -/
theorem regForm_mem_floatingPointInstrs {op : AluSel} (h : op ∈ [.fad, .fsb, .fml, .fdv]) (u v : Bool)
    (a b c : Reg) : regForm u v op a b c ∈ floatingPointInstrs := by
  fin_cases h <;> simp [regForm, floatingPointInstrs]

theorem immForm_mem_floatingPointInstrs {op : AluSel} (h : op ∈ [.fad, .fsb, .fml, .fdv]) (u v : Bool)
    (a b : Reg) (imm : BitVec 16) : immForm u v op a b imm ∈ floatingPointInstrs := by
  fin_cases h <;> simp [immForm, floatingPointInstrs]

/-- Every register-class word with selector 12 to 15 is a placeholder's (41_regop_arith.md R164). -/
theorem decodeWord_mem_floatingPointInstrs {w : Word} (h31 : bit w 31 = false) (hop : 12 ≤ (field w 16 4).toNat) :
    decodeWord w ∈ floatingPointInstrs := by
  cases h30 : bit w 30
  · rw [decodeWord_reg h31 h30]
    exact regForm_mem_floatingPointInstrs (aluSelOfBits_floating hop) _ _ _ _ _
  · rw [decodeWord_imm h31 h30]
    exact immForm_mem_floatingPointInstrs (aluSelOfBits_floating hop) _ _ _ _ _

theorem exec_of_mem_floatingPointInstrs {i : Instr} (h : i ∈ floatingPointInstrs) (s : State) :
    exec i s = .fault (.unsupportedOperation s.pc) := by
  fin_cases h <;> rfl

theorem emit_of_mem_floatingPointInstrs {i : Instr} (h : i ∈ floatingPointInstrs) (cfg : Config) (a0 : Word) :
    emit cfg a0 i = .error (.unsupportedOperation a0) := by
  fin_cases h <;> rfl

/-- Settles O24: the words with selector 12 to 15 are those of the eight placeholders. -/
theorem floatingPointRaisesUnsupported : Obligations.FloatingPointRaisesUnsupported :=
  ⟨fun s _ hi => exec_of_mem_floatingPointInstrs hi s, fun s _ a0 h31 hop =>
    have hmem := decodeWord_mem_floatingPointInstrs h31 hop
    ⟨exec_of_mem_floatingPointInstrs hmem s, emit_of_mem_floatingPointInstrs hmem s.cfg a0⟩⟩

end Sys2Proof.Machine
end

section
/-! PROOFS. The memory class (42_memory_ops.md R170 to R176): its four instructions as one load and one store at one
effective address, what each leaves, and where each stops. -/

namespace Sys2Proof.Machine

/-! ### Byte order and addresses as numbers -/

/-- Byte `k` of a word, as the quotient of the word's number (20_memory.md R52). -/
theorem byteOf_eq_ofNat (w : Word) (k : Nat) : byteOf w k = BitVec.ofNat 8 (w.toNat / 2 ^ (8 * k)) := by
  apply BitVec.eq_of_toNat_eq
  simp [byteOf, field, Nat.shiftRight_eq_div_pow]

theorem byteOf_ofNat {n k : Nat} {b : Byte} (hn : n < 2 ^ 32) (h : n / 2 ^ (8 * k) % 2 ^ 8 = b.toNat) :
    byteOf (BitVec.ofNat 32 n) k = b := by
  rw [byteOf_eq_ofNat, BitVec.toNat_ofNat, Nat.mod_eq_of_lt hn]
  exact BitVec.eq_of_toNat_eq h

/-- The little-endian word of four bytes is the number whose digits to the base 256 they are (20_memory.md R52). -/
theorem wordOfBytes_eq_ofNat (b0 b1 b2 b3 : Byte) :
    wordOfBytes b0 b1 b2 b3
      = BitVec.ofNat 32 (b0.toNat + 2 ^ 8 * b1.toNat + 2 ^ 16 * b2.toNat + 2 ^ 24 * b3.toNat) := by
  rw [← wordOfBytes_byteOf (BitVec.ofNat 32 _)]
  congr 1 <;> refine (byteOf_ofNat ?_ ?_).symm <;> omega

/-- The effective address is the signed sum of base and offset modulo 2^32, unscaled (42_memory_ops.md R170). -/
theorem State.ea_eq_ofInt (s : State) (b : Reg) (off : BitVec 20) :
    s.ea b off = BitVec.ofInt 32 ((s.reg b).toInt + off.toInt) := by
  rw [BitVec.ofInt_add, BitVec.ofInt_toInt]
  rfl

/-! ### Mapped bytes and the bytes a write leaves -/

theorem Memory.mapped_eq_false_iff (m : Memory) (a : Word) : m.mapped a = false ↔ m.get a = none := by
  simp [Memory.mapped]

theorem Memory.mapped_eq_true_iff (m : Memory) (a : Word) : m.mapped a = true ↔ m.get a ≠ none := by
  rw [← Bool.not_eq_false, Memory.mapped_eq_false_iff]

theorem Memory.mappedWord_eq_true_iff (m : Memory) (a : Word) :
    m.mappedWord a = true ↔ ∀ k < 4, m.get (a + BitVec.ofNat 32 k) ≠ none := by
  rw [← Bool.not_eq_false, Memory.mappedWord_eq_false_iff]
  simp only [not_exists, not_and, ne_eq]

/-- A word lies off a map exactly where none of its four bytes is one of the map's (20_memory.md R66). -/
theorem Memory.overlapsWord_eq_false_iff (m : Memory) (a : Word) :
    m.overlapsWord a = false ↔ ∀ k < 4, m.get (a + BitVec.ofNat 32 k) = none := by
  simp only [Memory.overlapsWord, Bool.or_eq_false_iff, Memory.mapped_eq_false_iff, Nat.forall_lt_succ_right,
    Nat.not_lt_zero, false_imp_iff, forall_const, true_and, BitVec.add_zero]

/-- A word write leaves every byte but its four (20_memory.md R56). -/
theorem Memory.get_writeWord_outside {m : Memory} {a w x : Word} (h : ∀ k < 4, x ≠ a + BitVec.ofNat 32 k) :
    (m.writeWord a w).get x = m.get x := by
  rw [Memory.get_writeWord, if_neg (h 3 (by decide)), if_neg (h 2 (by decide)), if_neg (h 1 (by decide)),
    if_neg (by simpa using h 0 (by decide))]

/-- A byte write leaves every other byte (20_memory.md R56). -/
theorem Memory.get_set_outside {m : Memory} {a x : Word} {b : Byte} (h : ∀ k < 1, x ≠ a + BitVec.ofNat 32 k) :
    (m.set a b).get x = m.get x := by
  rw [Memory.get_set, if_neg (by simpa using h 0 (by decide))]

/-! ### Loads: one operation on the value read -/

theorem loadOp_eq_next {value : Option Word} {a : Reg} {ea : Word} {s t : State} :
    loadOp value a ea s = .next t ↔ ∃ d, value = some d ∧ t = s.finish a d := by
  cases value <;> simp [loadOp, raise, eq_comm]

/-- A load faults exactly where its read gave nothing, and the fault names its address (42_memory_ops.md R175). -/
theorem loadOp_eq_fault {value : Option Word} {a : Reg} {ea : Word} {s : State} {g : Fault} :
    loadOp value a ea s = .fault g ↔ value = none ∧ g = .memoryFault .load ea s.pc := by
  cases value <;> simp [loadOp, raise, eq_comm]

theorem loadOp_ne_refused {value : Option Word} {a : Reg} {ea : Word} {s : State} {g : Refusal} :
    loadOp value a ea s ≠ .refused g := by
  cases value <;> nofun

/-- A load whose read gives a value writes it as its destination, and keeps the rest (42_memory_ops.md R171, R172). -/
theorem completes_writesDest_of_loadOp {i : Instr} {a : Reg} {ea d : Word} {value : Option Word} {s : State}
    (h : exec i s = loadOp value a ea s) (hd : value = some d) :
    Completes i s (fun t => WritesDest a d s t ∧ KeepsHCV s t) :=
  ⟨_, h.trans (loadOp_eq_next.mpr ⟨d, hd, rfl⟩), writesDest_finish s a d, keepsHCV_finish s a d⟩

/-! ### Stores: one operation on the memory written -/

theorem storeOp_eq_fault {written : Result Memory} {s : State} {g : Fault} :
    storeOp written s = .fault g ↔ written = .fault g := by
  simp [storeOp, bindResult_eq_fault]

theorem storeOp_eq_refused {written : Result Memory} {s : State} {g : Refusal} :
    storeOp written s = .refused g ↔ written = .refused g := by
  simp [storeOp, bindResult_eq_refused]

/-- A store completes exactly where its write does. -/
theorem exists_storeOp_eq_next {written : Result Memory} {s : State} :
    (∃ t, storeOp written s = .next t) ↔ ∃ m, written = .next m := by
  simp only [storeOp_eq_next]
  exact ⟨fun ⟨_, m, hm, _⟩ => ⟨m, hm⟩, fun ⟨m, hm⟩ => ⟨_, m, hm, rfl⟩⟩

/-- Where a word write faults: misaligned, or off the fetch mapping with a byte unmapped (20_memory.md R54, R61, R66;
log 8). -/
theorem memWriteWord_eq_fault {s : State} {ea w : Word} {g : Fault} :
    s.memWriteWord ea w = .fault g ↔
      (aligned ea = false ∨ s.fetchMap.overlapsWord ea = false ∧ s.mem.mappedWord ea = false)
        ∧ g = .memoryFault .store ea s.pc := by
  rcases memWriteWord_cases s ea w with ⟨h, e⟩ | ⟨h1, h2, e⟩ | ⟨h1, h2, h3, e⟩ | ⟨h1, h2, h3, e⟩ <;> rw [e]
  · simp [h, eq_comm (a := g)]
  · simp [h1, h2]
  · simp [h2, h3, eq_comm (a := g)]
  · simp [h1, h3]

/-- Where a word write is refused: aligned, and onto the fetch mapping (20_memory.md R66; log 8). -/
theorem memWriteWord_eq_refused {s : State} {ea w : Word} {g : Refusal} :
    s.memWriteWord ea w = .refused g ↔
      (aligned ea = true ∧ s.fetchMap.overlapsWord ea = true) ∧ g = .storeToFetchMapping ea s.pc := by
  rcases memWriteWord_cases s ea w with ⟨h, e⟩ | ⟨h1, h2, e⟩ | ⟨_, h, _, e⟩ | ⟨_, h, _, e⟩ <;> rw [e]
  · simp [h]
  · simp [h1, h2, eq_comm (a := g)]
  · simp [h]
  · simp [h]

/-- Where a byte write faults: off the fetch mapping and unmapped (20_memory.md R61, R66; log 8). -/
theorem memWriteByte_eq_fault {s : State} {ea : Word} {b : Byte} {g : Fault} :
    s.memWriteByte ea b = .fault g ↔
      (s.fetchMap.mapped ea = false ∧ s.mem.mapped ea = false) ∧ g = .memoryFault .store ea s.pc := by
  rcases memWriteByte_cases s ea b with ⟨h, e⟩ | ⟨h1, h2, e⟩ | ⟨_, h, e⟩ <;> rw [e]
  · simp [h]
  · simp [h1, h2, eq_comm (a := g)]
  · simp [h]

/-- Where a byte write is refused: onto the fetch mapping (20_memory.md R66; log 8). -/
theorem memWriteByte_eq_refused {s : State} {ea : Word} {b : Byte} {g : Refusal} :
    s.memWriteByte ea b = .refused g ↔ s.fetchMap.mapped ea = true ∧ g = .storeToFetchMapping ea s.pc := by
  rcases memWriteByte_cases s ea b with ⟨h, e⟩ | ⟨h, _, e⟩ | ⟨h, _, e⟩ <;> rw [e]
  · simp [h, eq_comm (a := g)]
  · simp [h]
  · simp [h]

/-- What a store keeps, whatever it writes: no register and no flag changes, and `pc` goes to the next instruction
(42_memory_ops.md R173 to R175). -/
theorem storeOp_frame {written : Result Memory} {s t : State} (h : storeOp written s = .next t) :
    SameRegs s t ∧ t.H = s.H ∧ SameFlags s t ∧ SameSurround s t ∧ t.pc = s.pc + 4#32 := by
  obtain ⟨m, -, rfl⟩ := storeOp_eq_next.mp h
  exact ⟨fun _ => rfl, rfl, ⟨rfl, rfl, rfl, rfl⟩, ⟨rfl, rfl, rfl, rfl, rfl, rfl, rfl⟩, rfl⟩

/-- A store whose write completes leaves the memory written, and keeps the rest (42_memory_ops.md R173, R174). -/
theorem completes_of_storeOp {i : Instr} {written : Result Memory} {m : Memory} {s : State}
    (h : exec i s = storeOp written s) (hm : written = .next m) :
    Completes i s (fun t => t.mem = m ∧ SameRegs s t ∧ t.H = s.H ∧ SameFlags s t ∧ SameSurround s t
      ∧ t.pc = s.pc + 4#32) :=
  have hstore : storeOp written s = .next ((s.setMem m).setPc s.next) := storeOp_eq_next.mpr ⟨m, hm, rfl⟩
  ⟨_, h.trans hstore, rfl, storeOp_frame hstore⟩

/-! ### The four instructions -/

theorem exec_ldw (a b : Reg) (off : BitVec 20) (s : State) :
    exec (.ldw a b off) s = loadOp (s.memReadWord (s.ea b off)) a (s.ea b off) s := rfl

theorem exec_ldb (a b : Reg) (off : BitVec 20) (s : State) :
    exec (.ldb a b off) s = loadOp (s.memReadByte (s.ea b off)) a (s.ea b off) s := rfl

theorem exec_stw (a b : Reg) (off : BitVec 20) (s : State) :
    exec (.stw a b off) s = storeOp (s.memWriteWord (s.ea b off) (s.reg a)) s := rfl

theorem exec_stb (a b : Reg) (off : BitVec 20) (s : State) :
    exec (.stb a b off) s = storeOp (s.memWriteByte (s.ea b off) (byteOf (s.reg a) 0)) s := rfl

/-- Settles O33: the four bytes make the word, and the rest is the end of every load. -/
theorem loadWordReadsLittleEndian : Obligations.LoadWordReadsLittleEndian := by
  intro s a b off b0 b1 b2 b3 hal h0 h1 h2 h3
  refine completes_writesDest_of_loadOp (exec_ldw a b off s) (memReadWord_eq_some.mpr ⟨(aligned_iff _).mpr hal, ?_⟩)
  rw [Memory.readWord_of_bytes h0 h1 h2 h3, wordOfBytes_eq_ofNat]

/-- A zero-extended byte is not negative (42_memory_ops.md R172). -/
theorem msb_ofNat_byte (byte : Byte) : (BitVec.ofNat 32 byte.toNat).msb = false := by
  rw [BitVec.msb_eq_false_iff_two_mul_lt, BitVec.toNat_ofNat]
  omega

/-- Settles O34: the common effect of a load, whose `N` is the top bit of the zero-extended byte. -/
theorem loadByteZeroExtends : Obligations.LoadByteZeroExtends := by
  intro s a b off byte hget
  have hread : s.memReadByte (s.ea b off) = some (BitVec.ofNat 32 byte.toNat) :=
    memReadByte_eq_some.mpr ⟨byte, hget, (BitVec.ofNat_toNat 32 byte).symm⟩
  obtain ⟨t, ht, hdest, hkeeps⟩ := completes_writesDest_of_loadOp (exec_ldb a b off s) hread
  have ⟨_, _, hN, _⟩ := hdest
  exact ⟨t, ht, hdest, hkeeps, hN.trans (msb_ofNat_byte byte)⟩

/-- Settles O35: the write completes, its four bytes are the word's, and it reaches no other byte. -/
theorem storeWordWritesFourBytes : Obligations.StoreWordWritesFourBytes := by
  intro s a b off hal hbytes
  have hoff : s.fetchMap.overlapsWord (s.ea b off) = false :=
    (Memory.overlapsWord_eq_false_iff _ _).mpr fun k hk => (hbytes k hk).2
  have hmap : s.mem.mappedWord (s.ea b off) = true :=
    (Memory.mappedWord_eq_true_iff _ _).mpr fun k hk => Option.isSome_iff_ne_none.mp (hbytes k hk).1
  obtain ⟨t, ht, hmem, hframe⟩ := completes_of_storeOp (exec_stw a b off s)
    (memWriteWord_eq_next.mpr ⟨(aligned_iff _).mpr hal, hoff, hmap, rfl⟩)
  refine ⟨t, ht, fun k hk => ?_, fun x hout => ?_, hframe⟩
  · rw [hmem, Memory.get_writeWord_byte _ _ _ hk, byteOf_eq_ofNat]
  · rw [hmem, Memory.get_writeWord_outside hout]

/-- Settles O36: as the word store, for the one byte, at any address. -/
theorem storeByteWritesOneByte : Obligations.StoreByteWritesOneByte := by
  intro s a b off hmap hoff
  obtain ⟨t, ht, hmem, hframe⟩ := completes_of_storeOp (exec_stb a b off s)
    (memWriteByte_eq_next.mpr ⟨(Memory.mapped_eq_false_iff _ _).mpr hoff, hmap, rfl⟩)
  refine ⟨t, ht, ?_, fun x hout => ?_, hframe⟩
  · simp [hmem, byteOf_eq_ofNat]
  · rw [hmem, Memory.get_set_outside hout]

/-- Settles O37: a load faults exactly where its read gives nothing. -/
theorem loadsFaultExactlyWhere : Obligations.LoadsFaultExactlyWhere := by
  intro s a b off
  rw [exec_ldw, exec_ldb, loadOp_eq_fault, loadOp_eq_fault, and_iff_left rfl, and_iff_left rfl]
  constructor
  · rw [memReadWord_eq_none, aligned_eq_false_iff, Memory.mappedWord_eq_false_iff]
  · rw [memReadByte_eq_none, Memory.mapped_eq_false_iff]

/-- Settles O38: a store stops exactly where its write does, and each outcome of a write has its own condition. -/
theorem storesStopExactlyWhere : Obligations.StoresStopExactlyWhere := by
  intro s a b off ea offProgram mapped
  have hal : aligned ea = false ↔ ea.toNat % 4 ≠ 0 := aligned_eq_false_iff ea
  have hoff : s.fetchMap.overlapsWord ea = false ↔ offProgram := Memory.overlapsWord_eq_false_iff _ _
  have hmap : s.mem.mappedWord ea = true ↔ mapped := Memory.mappedWord_eq_true_iff _ _
  rw [exec_stw, exec_stb]
  refine ⟨?_, ?_, ?_, ?_, ?_, ?_⟩
  · rw [storeOp_eq_fault, memWriteWord_eq_fault, and_iff_left rfl, hal, hoff, ← hmap, Bool.not_eq_true]
  · rw [storeOp_eq_refused, memWriteWord_eq_refused, and_iff_left rfl, aligned_iff, ← hoff, Bool.not_eq_false]
  · simp only [exists_storeOp_eq_next, memWriteWord_eq_next, exists_and_left, exists_eq, and_true]
    rw [aligned_iff, hoff, hmap]
  · rw [storeOp_eq_fault, memWriteByte_eq_fault, and_iff_left rfl, Memory.mapped_eq_false_iff,
      Memory.mapped_eq_false_iff]
  · rw [storeOp_eq_refused, memWriteByte_eq_refused, and_iff_left rfl, Memory.mapped_eq_true_iff]
  · simp only [exists_storeOp_eq_next, memWriteByte_eq_next, exists_and_left, exists_eq, and_true]
    rw [Memory.mapped_eq_false_iff, Memory.mapped_eq_true_iff]

/-! ### A memory-class word -/

section MemoryWord

variable {v : Bool} {a b : Reg} {off : BitVec 20} {s t : State}

/-- Both load rows are the one load operation at the effective address (42_memory_ops.md R170 to R172). -/
theorem exec_memForm_load (v : Bool) (a b : Reg) (off : BitVec 20) (s : State) :
    ∃ value, exec (memForm false v a b off) s = loadOp value a (s.ea b off) s := by
  cases v
  · exact ⟨_, exec_ldw a b off s⟩
  · exact ⟨_, exec_ldb a b off s⟩

/-- A load that completes changes no byte and no register but its destination (42_memory_ops.md R171, R172). -/
theorem memForm_load_frame (h : exec (memForm false v a b off) s = .next t) :
    SameMemory s t ∧ SameRegsBut a s t := by
  obtain ⟨value, hload⟩ := exec_memForm_load v a b off s
  obtain ⟨d, -, rfl⟩ := loadOp_eq_next.mp (hload.symm.trans h)
  exact ⟨fun _ => rfl, sameRegsBut_finish s a d⟩

/-- A store that completes changes no register (42_memory_ops.md R173, R174). -/
theorem memForm_store_sameRegs (h : exec (memForm true v a b off) s = .next t) : SameRegs s t := by
  cases v
  · exact (storeOp_frame h).1
  · exact (storeOp_frame h).1

theorem exec_ldw_eq_next (h : exec (.ldw a b off) s = .next t) : s.mem.readWord (s.ea b off) = some (t.reg a) := by
  obtain ⟨d, hread, rfl⟩ := loadOp_eq_next.mp h
  simpa using (memReadWord_eq_some.mp hread).2

theorem exec_ldb_eq_next (h : exec (.ldb a b off) s = .next t) :
    ∃ byte, s.mem.get (s.ea b off) = some byte ∧ t.reg a = byte.setWidth 32 := by
  obtain ⟨d, hread, rfl⟩ := loadOp_eq_next.mp h
  obtain ⟨byte, hget, rfl⟩ := memReadByte_eq_some.mp hread
  exact ⟨byte, hget, by simp⟩

theorem exec_stw_stores (h : exec (.stw a b off) s = .next t) :
    t.mem.readWord (s.ea b off) = some (s.reg a) ∧ SameMemoryOutside (s.ea b off) 4 s t := by
  obtain ⟨-, hmem⟩ := exec_stw_eq_next h
  refine ⟨?_, fun x hout => ?_⟩ <;> rw [hmem]
  · exact Memory.readWord_writeWord _ _ _
  · exact Memory.get_writeWord_outside hout

theorem exec_stb_stores (h : exec (.stb a b off) s = .next t) :
    t.mem.get (s.ea b off) = some ((s.reg a).setWidth 8) ∧ SameMemoryOutside (s.ea b off) 1 s t := by
  have hmem := exec_stb_eq_next h
  refine ⟨?_, fun x hout => ?_⟩ <;> rw [hmem]
  · rw [Memory.get_set, if_pos rfl]
    rfl
  · exact Memory.get_set_outside hout

/-- Every fault of a memory-class row names the effective address (42_memory_ops.md R175; 60_exceptions.md R263). -/
theorem memForm_fault {u : Bool} {g : Fault} (h : exec (memForm u v a b off) s = .fault g) :
    ∃ kind, g = .memoryFault kind (s.ea b off) s.pc := by
  cases u
  · obtain ⟨value, hload⟩ := exec_memForm_load v a b off s
    exact ⟨.load, (loadOp_eq_fault.mp (hload.symm.trans h)).2⟩
  · cases v
    · exact ⟨.store, (memWriteWord_eq_fault.mp (storeOp_eq_fault.mp h)).2⟩
    · exact ⟨.store, (memWriteByte_eq_fault.mp (storeOp_eq_fault.mp h)).2⟩

/-- So does every refusal, which only a store can meet (20_memory.md R66; log 8). -/
theorem memForm_refused {u : Bool} {g : Refusal} (h : exec (memForm u v a b off) s = .refused g) :
    g = .storeToFetchMapping (s.ea b off) s.pc := by
  cases u
  · obtain ⟨value, hload⟩ := exec_memForm_load v a b off s
    exact absurd (hload.symm.trans h) loadOp_ne_refused
  · cases v
    · exact (memWriteWord_eq_refused.mp (storeOp_eq_refused.mp h)).2
    · exact (memWriteByte_eq_refused.mp (storeOp_eq_refused.mp h)).2

end MemoryWord

/-- Settles O39: bits 29 and 28 choose the row, and every row works at the effective address. -/
theorem memoryClassUsesOneEffectiveAddress : Obligations.MemoryClassUsesOneEffectiveAddress := by
  intro w s h31 h30
  simp only [decodeWord_mem h31 h30, ← State.ea_eq_ofInt]
  refine ⟨fun t ht => ?_, fun kind addr a0 h => ?_, fun addr a0 h => ?_⟩
  · cases h29 : bit w 29 <;> rw [h29] at ht
    · have hframe := memForm_load_frame ht
      cases h28 : bit w 28 <;> rw [h28] at ht
      · simpa [hframe] using exec_ldw_eq_next ht
      · simpa [hframe] using exec_ldb_eq_next ht
    · have hregs := memForm_store_sameRegs ht
      cases h28 : bit w 28 <;> rw [h28] at ht
      · simpa [hregs] using exec_stw_stores ht
      · simpa [hregs] using exec_stb_stores ht
  · obtain ⟨_, hg⟩ := memForm_fault h
    cases hg
    rfl
  · cases memForm_refused h
    rfl

end Sys2Proof.Machine
end

section
/-! PROOFS. The branch class (43_branch_ops.md R190 to R205): the condition table, the effect of a branch, what a branch
word leaves and what it does not see, and the meaning of the conditions after a compare. -/

namespace Sys2Proof.Machine

/-! ### The condition table -/

/-- The number of a condition, `w[27:24]` (30_encoding.md R94, R100). -/
def condNumber (cc : Cond) : Nat := 8 * cc.inv.toNat + (condSelBits cc.sel).toNat

/-- Bit 27 inverts: the upper half of the table negates the lower (43_branch_ops.md R192). -/
theorem takenByTable_add_eight {cc : Nat} (hcc : cc < 8) (s : State) :
    takenByTable (8 + cc) s ↔ ¬takenByTable cc s := by
  interval_cases cc <;> simp [takenByTable]

/-- The lower half of the table is the term of the selector (43_branch_ops.md R191, R192). -/
theorem condTerm_iff_table (sel : CondSel) (s : State) :
    condTerm s.N s.Z s.C s.V sel = true ↔ takenByTable (condSelBits sel).toNat s := by
  cases sel <;> simp [condTerm, condSelBits, takenByTable]

/-- The flags make a condition hold exactly where the table says so (43_branch_ops.md R191, R192). -/
theorem taken_iff_table (cc : Cond) (s : State) : s.taken cc = true ↔ takenByTable (condNumber cc) s := by
  obtain ⟨inv, sel⟩ := cc
  cases inv
  · simpa [State.taken, condHolds, condNumber] using condTerm_iff_table sel s
  · have hinv := takenByTable_add_eight (condSelBits sel).isLt s
    rw [← condTerm_iff_table] at hinv
    simpa [State.taken, condHolds, condNumber] using hinv.symm

/-! ### The lists of forms -/

/-- The sixteen conditions in the order of their numbers. -/
def conditions : List Cond :=
  [.mi, .eq, .cs, .vs, .ls, .lt, .le, .al, .pl, .ne, .cc, .vc, .hi, .ge, .gt, .nv]

/-- The forms of one format, without and then with link: the instruction, its link flag and its condition number. -/
def formsOf (form : Bool → Cond → Instr) : List (Instr × Bool × Nat) :=
  [false, true].flatMap fun link => conditions.map fun cc => (form link cc, link, condNumber cc)

theorem indirectForms_eq (c : Reg) : indirectForms c = formsOf fun link cc => branchInd link cc c := rfl

theorem relativeForms_eq (off : BitVec 24) : relativeForms off = formsOf fun link cc => branchRel link cc off := rfl

theorem exists_of_mem_formsOf {form : Bool → Cond → Instr} {f : Instr × Bool × Nat} (h : f ∈ formsOf form) :
    ∃ link cc, f = (form link cc, link, condNumber cc) := by
  obtain ⟨link, -, hf⟩ := List.mem_flatMap.mp h
  obtain ⟨cc, -, rfl⟩ := List.mem_map.mp hf
  exact ⟨link, cc, rfl⟩

/-! ### The 64 instructions -/

/-- A branch completes with the effect the spec gives it, its condition read from the table (43_branch_ops.md R191,
R192, R196). -/
theorem completes_of_branchOp {i : Instr} {link : Bool} {cc : Cond} {target : Word} {s : State}
    (h : exec i s = branchOp link cc target s) :
    Completes i s (BranchEffect link (takenByTable (condNumber cc) s) target s) := by
  obtain ⟨t, ht, heffect⟩ := branchOp_effect link cc target s
  exact ⟨t, h.trans ht, propext (taken_iff_table cc s) ▸ heffect⟩

/-- A displacement as a number: four times the signed offset (30_encoding.md R89). -/
theorem displacement_eq (off : BitVec 24) : displacement off = BitVec.ofInt 32 (4 * off.toInt) := by
  rw [displacement, BitVec.shiftLeft_eq_mul_twoPow, Int.mul_comm, BitVec.ofInt_mul]
  rfl

/-- The target of a pc-relative branch as a number (43_branch_ops.md R193). -/
theorem relTarget_eq (s : State) (off : BitVec 24) :
    s.relTarget off = BitVec.ofInt 32 ((s.pc.toNat : Int) + 4 + 4 * off.toInt) := by
  rw [State.relTarget, State.next, displacement_eq, BitVec.ofInt_add, BitVec.ofInt_add, BitVec.ofInt_natCast,
    BitVec.ofNat_toNat, BitVec.setWidth_eq]
  rfl

/-- Settles O42: every form is the branch to its register on a condition of the table. -/
theorem indirectBranchesComplete : Obligations.IndirectBranchesComplete := by
  intro c s form hform
  rw [indirectForms_eq] at hform
  obtain ⟨link, cc, rfl⟩ := exists_of_mem_formsOf hform
  exact completes_of_branchOp (exec_branchInd link cc c s)

/-- Settles O43: every form is the branch by its displacement on a condition of the table. -/
theorem relativeBranchesComplete : Obligations.RelativeBranchesComplete := by
  intro off s form hform
  rw [relativeForms_eq] at hform
  obtain ⟨link, cc, rfl⟩ := exists_of_mem_formsOf hform
  rw [← relTarget_eq]
  exact completes_of_branchOp (exec_branchRel link cc off s)

/-! ### A branch word -/

/-- The target of a branch word by its bit 29 (43_branch_ops.md R193, R194). -/
def branchTarget (w : Word) (s : State) : Word :=
  if bit w 29 then s.relTarget (field w 0 24) else s.reg (regOfBits (field w 0 4))

section BranchWord

variable {w : Word} {s t : State}

/-- What a branch word does, in both formats (43_branch_ops.md R201). -/
theorem exec_branchWord (hw : isBranchWord w = true) (s : State) :
    exec (decodeWord w) s = branchOp (bit w 28) (condOfWord w) (branchTarget w s) s := by
  rw [decodeWord_branch hw, branchTarget]
  cases bit w 29
  · exact exec_branchInd _ _ _ s
  · exact exec_branchRel _ _ _ s

/-- A branch writes at most `pc`, the link register, `Z` and `N` (43_branch_ops.md R205). -/
theorem branchOp_frame {link : Bool} {cc : Cond} {target : Word} (h : branchOp link cc target s = .next t) :
    SameRegsBut 15 s t ∧ KeepsHCV s t ∧ t.I = s.I ∧ t.mem = s.mem := by
  rw [branchOp_eq, Host.Outcome.next.injEq] at h
  subst h
  split
  · exact ⟨fun r hr => by simp [linkReg, hr], ⟨rfl, rfl, rfl⟩, rfl, rfl⟩
  · exact ⟨fun _ _ => rfl, ⟨rfl, rfl, rfl⟩, rfl, rfl⟩

/-- A branch makes no memory access (43_branch_ops.md R204). -/
theorem branchOp_setMem (link : Bool) (cc : Cond) (target : Word) (s : State) (m : Memory) :
    branchOp link cc target (s.setMem m) = mapNext (fun t => t.setMem m) (branchOp link cc target s) := by
  have htaken : (s.setMem m).taken cc = s.taken cc := rfl
  simp only [branchOp_eq, htaken, State.setMem_cfg]
  split <;> rfl

/-- With other contents of memory the word does the same, and carries them along: its target is not in memory. -/
theorem exec_setMem_of_branchWord (hw : isBranchWord w = true) (h : exec (decodeWord w) s = .next t) (m : Memory) :
    exec (decodeWord w) (s.setMem m) = .next (t.setMem m) := by
  rw [exec_branchWord hw] at h ⊢
  exact (branchOp_setMem _ _ _ s m).trans (congrArg (mapNext _) h)

/-- With another `H` the word does the same, and carries it along (43_branch_ops.md R205). -/
theorem exec_setH_of_branchWord (hw : isBranchWord w = true) (h : exec (decodeWord w) s = .next t) (hi : Word) :
    exec (decodeWord w) (s.setH hi) = .next (t.setH hi) := by
  rw [exec_branchWord hw] at h ⊢
  exact (branchOp_setH _ _ _ s hi).trans (congrArg (mapNext _) h)

end BranchWord

/-- Settles O44: a branch word's condition is bit 27 and the selector in bits 26:24. -/
theorem branchTakenByTheWorkingBit : Obligations.BranchTakenByTheWorkingBit := by
  intro w s hw workingTerm T target
  have hterm : condTerm s.N s.Z s.C s.V (condSelOfBits (field w 24 3)) = workingTerm := by
    unfold workingTerm
    generalize field w 24 3 = sel
    obtain ⟨k, hk⟩ := sel
    interval_cases k <;> rfl
  have htaken : s.taken (condOfWord w) = T := congrArg (bit w 27 ^^ ·) hterm
  have htarget : branchTarget w s = target := by rw [branchTarget, relTarget_eq]
  refine ⟨_, (exec_branchWord hw s).trans (branchOp_eq _ _ _ _), ?_⟩
  simp only [State.setPc_pc, htaken, htarget, State.next]

/-- Settles O45: memory is neither read nor written, and a misaligned `pc` gives no word to the next fetch. -/
theorem branchRaisesNoSignal : Obligations.BranchRaisesNoSignal := by
  intro w s hw
  obtain ⟨t, ht, -⟩ := branchOp_effect (bit w 28) (condOfWord w) (branchTarget w s) s
  have hexec : exec (decodeWord w) s = .next t := (exec_branchWord hw s).trans ht
  obtain ⟨-, -, -, hmem⟩ := branchOp_frame ht
  exact ⟨t, hexec, hmem, exec_setMem_of_branchWord hw hexec, fun hpc hbreak =>
    step_of_fetch_eq_none hbreak (fetch_eq_none.mpr (.inl ((aligned_eq_false_iff _).mpr hpc)))⟩

/-- Settles O46: the frame of every branch, and blindness to `H` and then to memory. -/
theorem branchFrameAndBlindness : Obligations.BranchFrameAndBlindness := by
  intro w s t hw h
  obtain ⟨hregs, hkeeps, hI, hmem⟩ := branchOp_frame ((exec_branchWord hw s).symm.trans h)
  exact ⟨hregs, hkeeps, hI, hmem, fun hi m => exec_setMem_of_branchWord hw (exec_setH_of_branchWord hw h hi) m⟩

/-! ### Call and return -/

/-- An unconditional branch with link and then one to `x[15]` come back to the instruction after the first
(43_branch_ops.md R203). -/
theorem BranchEffect.comesBack {target : Word} {s t u : State} (hcall : BranchEffect true True target s t)
    (hreturn : BranchEffect false True (t.reg 15) t u) :
    u.pc = s.pc + 4#32 ∧ u.reg 15 = s.pc + 4#32 ∧ SameRegsBut 15 s u ∧ KeepsHCV s u ∧ SameMemory s u := by
  obtain ⟨-, -, hlink, -, ⟨hH, hC, hV⟩, hmem, -⟩ := hcall
  obtain ⟨hpc', -, -, hsame, ⟨hH', hC', hV'⟩, hmem', -⟩ := hreturn
  obtain ⟨hx15, hregs, -, -⟩ := hlink ⟨rfl, .inl trivial⟩
  obtain ⟨hregs', -, -⟩ := hsame (by simp)
  exact ⟨(hpc' trivial).trans hx15, (hregs' 15).trans hx15, fun r hr => (hregs' r).trans (hregs r hr),
    ⟨hH'.trans hH, hC'.trans hC, hV'.trans hV⟩, fun x => (hmem' x).trans (hmem x)⟩

/-- Settles O47: both calls and the return are branches on the condition that always holds. -/
theorem callAndReturnComesBack : Obligations.CallAndReturnComesBack := by
  intro s off c back
  have hreturn (t : State) : Completes (.bInd 15) t (BranchEffect false True (t.reg 15) t) :=
    completes_of_branchOp (cc := .al) rfl
  have hcall {i : Instr} {target : Word} (h : Completes i s (BranchEffect true True target s)) :
      Completes i s (fun t => Completes (.bInd 15) t back) :=
    h.imp fun t ht => (hreturn t).imp fun _ hu => ht.comesBack hu
  exact ⟨hcall (completes_of_branchOp (cc := .al) rfl), hcall (completes_of_branchOp (cc := .al) rfl)⟩

/-! ### The conditions after a compare -/

section Compare

variable {a : Reg} {bv cv : Word} {s t : State}

/-- The difference is zero exactly when the operands are equal. -/
theorem SubEffect.zero_iff (h : SubEffect 0 a bv cv s t) : t.Z = true ↔ bv = cv := by
  obtain ⟨⟨-, hZ, -⟩, -⟩ := h
  have := bv.isLt
  have := cv.isLt
  have hzero : (0 : Word).toNat = 0 := rfl
  rw [hZ, decide_eq_true_iff, ← BitVec.toNat_inj, ← BitVec.toNat_inj, BitVec.toNat_ofInt, hzero]
  omega

/-- `C` is the borrow: the first operand is below the second, unsigned (41_regop_arith.md R145). -/
theorem SubEffect.carry_iff (h : SubEffect 0 a bv cv s t) : t.C = true ↔ bv.toNat < cv.toNat := by
  rw [SubEffect.borrow (cin := false) h (by simp)]
  simp

/-- The sign of the difference, corrected by the overflow, is that of the exact difference (43_branch_ops.md R192). -/
theorem SubEffect.less_iff (h : SubEffect 0 a bv cv s t) : t.N ≠ t.V ↔ bv.toInt < cv.toInt := by
  have hV := SubEffect.overflow (cin := false) h
  obtain ⟨⟨-, -, hN, -⟩, -⟩ := h
  have := bv.isLt
  have := cv.isLt
  rw [hN, hV, BitVec.msb_eq_decide, ne_eq, decide_eq_decide]
  simp only [BitVec.toInt_eq_toNat_cond, BitVec.toNat_ofInt, Bool.toNat_false]
  split <;> split <;> omega

end Compare

/-- Settles O29: the five lower conditions by three facts about the flags, the five upper ones as their negations. -/
theorem comparisonsMeanWhatTheirNamesSay : Obligations.ComparisonsMeanWhatTheirNamesSay := by
  intro s a b c
  refine (completes_of_subOp (cin := false) rfl).imp fun t ht => ?_
  have hEQ : takenByTable 1 t ↔ s.reg b = s.reg c := SubEffect.zero_iff ht
  have hCS : takenByTable 2 t ↔ (s.reg b).toNat < (s.reg c).toNat := SubEffect.carry_iff ht
  have hLT : takenByTable 5 t ↔ (s.reg b).toInt < (s.reg c).toInt := SubEffect.less_iff ht
  have hLS : takenByTable 4 t ↔ (s.reg b).toNat ≤ (s.reg c).toNat := by
    rw [Nat.le_iff_lt_or_eq, BitVec.toNat_inj]
    exact or_congr hCS hEQ
  have hLE : takenByTable 6 t ↔ (s.reg b).toInt ≤ (s.reg c).toInt := by
    rw [le_iff_lt_or_eq, BitVec.toInt_inj]
    exact or_congr hLT hEQ
  have hinv {cc : Nat} (hcc : cc < 8) := takenByTable_add_eight hcc t
  refine ⟨hEQ, (hinv (by decide)).trans (not_congr hEQ), hCS, ?_, hLS, ?_, hLT, ?_, hLE, ?_⟩
  · exact (hinv (by decide)).trans ((not_congr hCS).trans Nat.not_lt)
  · exact (hinv (by decide)).trans ((not_congr hLS).trans Nat.not_le)
  · exact (hinv (by decide)).trans ((not_congr hLT).trans Int.not_lt)
  · exact (hinv (by decide)).trans ((not_congr hLE).trans Int.not_le)

end Sys2Proof.Machine
end

section
/-! PROOFS. The Builder is invisible to the instructions (10_state.md R31; 44_unit_builder.md R245): with another Builder,
another output and other unit limits, every instruction does the same and carries them along. -/

namespace Sys2Proof.Machine

/-- What follows a mapped outcome may map it itself. -/
theorem bindResult_mapNext {α β γ : Type} (f : α → β) (r : Result α) (g : β → Result γ) :
    bindResult (mapNext f r) g = bindResult r fun a => g (f a) := by
  cases r <;> rfl

/-- Mapping the end of a sequence maps its last part. -/
theorem mapNext_bindResult {α β γ : Type} (f : β → γ) (r : Result α) (g : α → Result β) :
    mapNext f (bindResult r g) = bindResult r fun a => mapNext f (g a) := by
  cases r <;> rfl

theorem bindResult_next_eq_mapNext {α β : Type} (f : α → β) (r : Result α) :
    bindResult r (fun a => .next (f a)) = mapNext f r := by
  cases r <;> rfl

theorem mapNext_mapNext {α β γ : Type} (g : β → γ) (f : α → β) (r : Result α) :
    mapNext g (mapNext f r) = mapNext (fun a => g (f a)) r := by
  cases r <;> rfl

/-- Two maps that agree on the state an outcome goes on with map the outcome alike. -/
theorem mapNext_congr {σ τ : Type} {f g : σ → τ} {r : Result σ} (h : ∀ t, r = .next t → f t = g t) :
    mapNext f r = mapNext g r := by
  cases r with
  | next t => exact congrArg _ (h t rfl)
  | fault | refused => rfl

/-! ### The state with other unit boundaries -/

/-- `s` with Builder `b`, output `u`, MAX_INSNS `cap` and a page of `2 ^ page` slots: everything unit boundaries come
from but the program and its breakpoints (44_unit_builder.md R220 to R224). -/
def State.setUnits (s : State) (b : Builder) (u : Option ClosedUnit) (cap : Nat) (page : Fin 31) : State :=
  { s with builder := b, returned := u, maxInsns := cap, cfg := { s.cfg with pageSlotBits := page } }

section SetUnits

variable (s : State) (bd : Builder) (u : Option ClosedUnit) (cap : Nat) (page : Fin 31)

theorem setUnits_pc : (s.setUnits bd u cap page).pc = s.pc := rfl

theorem setUnits_reg (r : Reg) : (s.setUnits bd u cap page).reg r = s.reg r := rfl

theorem setUnits_divOverflow : (s.setUnits bd u cap page).cfg.divOverflow = s.cfg.divOverflow := rfl

theorem moveOp_setUnits (a : Reg) (d : Word) :
    moveOp a d (s.setUnits bd u cap page) = mapNext (fun t => t.setUnits bd u cap page) (moveOp a d s) := rfl

theorem aluOp_setUnits (f : Word → Word → Word) (a b : Reg) (cv : Word) :
    aluOp f a b cv (s.setUnits bd u cap page) = mapNext (fun t => t.setUnits bd u cap page) (aluOp f a b cv s) := rfl

theorem addOp_setUnits (cin : Bool) (a b : Reg) (cv : Word) :
    addOp cin a b cv (s.setUnits bd u cap page) = mapNext (fun t => t.setUnits bd u cap page) (addOp cin a b cv s) :=
  rfl

theorem subOp_setUnits (cin : Bool) (a b : Reg) (cv : Word) :
    subOp cin a b cv (s.setUnits bd u cap page) = mapNext (fun t => t.setUnits bd u cap page) (subOp cin a b cv s) :=
  rfl

theorem mulOp_setUnits (uns : Bool) (a b : Reg) (cv : Word) :
    mulOp uns a b cv (s.setUnits bd u cap page) = mapNext (fun t => t.setUnits bd u cap page) (mulOp uns a b cv s) :=
  rfl

theorem divOp_setUnits (uns : Bool) (a b : Reg) (cv : Word) :
    divOp uns a b cv (s.setUnits bd u cap page) = mapNext (fun t => t.setUnits bd u cap page) (divOp uns a b cv s) := by
  simp only [divOp, setUnits_reg, setUnits_pc, setUnits_divOverflow]
  cases divideSignal s.cfg.divOverflow uns (s.reg b) cv s.pc <;> rfl

theorem floatOp_setUnits :
    floatOp (s.setUnits bd u cap page) = mapNext (fun t => t.setUnits bd u cap page) (floatOp s) := rfl

theorem loadOp_setUnits (value : Option Word) (a : Reg) (ea : Word) :
    loadOp value a ea (s.setUnits bd u cap page)
      = mapNext (fun t => t.setUnits bd u cap page) (loadOp value a ea s) := by
  cases value <;> rfl

theorem storeOp_setUnits (written : Result Memory) :
    storeOp written (s.setUnits bd u cap page) = mapNext (fun t => t.setUnits bd u cap page) (storeOp written s) := by
  cases written <;> rfl

theorem branchOp_setUnits (link : Bool) (cc : Cond) (target : Word) :
    branchOp link cc target (s.setUnits bd u cap page)
      = mapNext (fun t => t.setUnits bd u cap page) (branchOp link cc target s) := by
  by_cases hwrites : (link && (s.taken cc || s.cfg.linkWriteWhenNotTaken)) = true
  · rw [branchOp_eq, branchOp_eq, if_pos hwrites, if_pos (by exact hwrites)]
    rfl
  · rw [branchOp_eq, branchOp_eq, if_neg hwrites, if_neg (by exact hwrites)]
    rfl

/-- No instruction sees the Builder, its output or the unit limits: the case split follows the shared operations, and the
constructors it does not name are the branches. -/
theorem exec_setUnits (i : Instr) :
    exec i (s.setUnits bd u cap page) = mapNext (fun t => t.setUnits bd u cap page) (exec i s) := by
  cases i with
  | movReg | movH | movFlags | movImm | movhi => exact moveOp_setUnits s bd u cap page _ _
  | lslReg | lslImm | asrReg | asrImm | rorReg | rorImm | andReg | andImm | annReg | annImm | iorReg | iorImm | xorReg
  | xorImm => exact aluOp_setUnits s bd u cap page _ _ _ _
  | addReg | addImm | adcReg | adcImm => exact addOp_setUnits s bd u cap page _ _ _ _
  | subReg | subImm | sbcReg | sbcImm => exact subOp_setUnits s bd u cap page _ _ _ _
  | mulReg | mulImm | umulReg | umulImm => exact mulOp_setUnits s bd u cap page _ _ _ _
  | divReg | divImm | udivReg | udivImm => exact divOp_setUnits s bd u cap page _ _ _ _
  | fadReg | fadImm | fsbReg | fsbImm | fmlReg | fmlImm | fdvReg | fdvImm => exact floatOp_setUnits s bd u cap page
  | ldw | ldb => exact loadOp_setUnits s bd u cap page _ _ _
  | stw | stb => exact storeOp_setUnits s bd u cap page _
  | _ => exact branchOp_setUnits s bd u cap page _ _ _

end SetUnits

/-- So no instruction sees the Builder and its output alone. -/
theorem exec_setBuilder_setReturned (i : Instr) (s : State) (b : Builder) (u : Option ClosedUnit) :
    exec i ((s.setBuilder b).setReturned u) = mapNext (fun t => (t.setBuilder b).setReturned u) (exec i s) := by
  refine (exec_setUnits s b u s.maxInsns s.cfg.pageSlotBits i).trans (mapNext_congr fun t ht => ?_)
  obtain ⟨-, -, -, hcap, hcfg, -, -⟩ := exec_sameSurround ht
  rw [← hcap, ← hcfg]
  rfl

/-- Nor whether a unit is open. -/
theorem exec_openUnit (i : Instr) (s : State) :
    ∃ u, exec i s.openUnit = mapNext (fun t => (t.setBuilder s.openUnit.builder).setReturned u) (exec i s) := by
  obtain ⟨u, h⟩ := openUnit_eq s
  exact ⟨u, (congrArg (exec i) h).trans (exec_setBuilder_setReturned i s _ u)⟩

/-! ### A step, with its instruction taken from the state before it -/

theorem setBuilder_setReturned_setBuilder (s : State) (b b' : Builder) (u : Option ClosedUnit) :
    ((s.setBuilder b).setReturned u).setBuilder b' = (s.setBuilder b').setReturned u := rfl

theorem runWord_openUnit (w : Word) (s : State) :
    runWord w s.openUnit
      = mapNext (fun t => (t.setBuilder (s.openUnit.builder.count w)).returnUnit) (exec (decodeWord w) s) := by
  obtain ⟨u, h⟩ := exec_openUnit (decodeWord w) s
  simp only [runWord, h, bindResult_next_eq_mapNext, mapNext_mapNext, setBuilder_setReturned_setBuilder,
    setReturned_returnUnit]

/-- A step at a word: the instruction, the count of the word, and the return (44_unit_builder.md R222, R225). -/
theorem step_of_word {s : State} {w : Word} (hb : s.breakpointAt s.pc = false) (hf : s.fetch s.pc = some w) :
    step s = mapNext (fun t => (t.setBuilder (s.openUnit.builder.count w)).returnUnit) (exec (decodeWord w) s) :=
  (step_of_fetch_eq_some hb hf).trans (runWord_openUnit w s)

/-- A step at a breakpoint: the close and the return, with nothing fetched (44_unit_builder.md R231). -/
theorem step_of_breakpoint {s : State} (hb : s.breakpointAt s.pc = true) :
    step s = .next (s.setBuilder s.openUnit.builder.closeBreakpoint).returnUnit := by
  have h : step s = .next (s.openUnit.setBuilder s.openUnit.builder.closeBreakpoint).returnUnit := by simp [step, hb]
  rcases step_eq_next h with ⟨-, e⟩ | ⟨hb', -⟩
  · rw [h, e]
  · simp [hb] at hb'

/-- Settles O10: the four bytes make the word the step fetches. -/
theorem stepRunsTheDecodedInstruction : Obligations.StepRunsTheDecodedInstruction := by
  intro s i b0 b1 b2 b3 hpc hb h0 h1 h2 h3 hdecode
  have hword : s.fetch s.pc = some (wordOfBytes b0 b1 b2 b3) :=
    fetch_eq_some.mpr ⟨(aligned_iff _).mpr hpc, by simp only [Memory.readWord, h0, h1, h2, h3]⟩
  have hi : decodeWord (wordOfBytes b0 b1 b2 b3) = i := by simpa [decode] using hdecode
  rw [step_of_word hb hword, hi]
  cases exec i s <;> rfl

end Sys2Proof.Machine
end

section
/-! PROOFS. The unit of a step (44_unit_builder.md R222, R229 to R233): which unit a step works in, when that unit closes,
and what the step then returns. -/

namespace Sys2Proof.Machine

/-! ### The unit a step works in -/

section OpenUnit

variable {s : State}

theorem openUnit_builder_of_opened (h : s.builder.phase = .opened) : s.openUnit.builder = s.builder := by
  rcases openUnit_cases s with ⟨-, e⟩ | ⟨hne, -⟩
  · rw [e]
  · exact absurd h hne

theorem openUnit_builder_of_ne_opened (h : s.builder.phase ≠ .opened) :
    s.openUnit.builder = Builder.invoke s.cfg s.pc s.maxInsns := by
  rcases openUnit_cases s with ⟨hopen, -⟩ | ⟨-, _, e⟩
  · exact absurd hopen h
  · rw [e]; rfl

/-- The unit of a step stands at `pc`: an invocation starts there, and an open unit is there by the hypothesis. -/
theorem openUnit_builder_cur (h : s.builder.phase = .opened → s.builder.cur = s.pc) :
    s.openUnit.builder.cur = s.pc := by
  by_cases hopen : s.builder.phase = .opened
  · rw [openUnit_builder_of_opened hopen, h hopen]
  · rw [openUnit_builder_of_ne_opened hopen]; rfl

end OpenUnit

/-! ### What a return leaves -/

theorem returnUnit_of_closed {s : State} {b : Builder} {reason : CloseReason} {exit : ExitDescriptor}
    (hphase : b.phase = .closed reason) (hexit : b.exit = some exit) :
    (s.setBuilder b).returnUnit = (s.setBuilder Builder.idle).setReturned (some ⟨b.start, b.n, reason, exit⟩) := by
  simp [State.returnUnit, Builder.output, hphase, hexit]

theorem returnUnit_of_opened {s : State} {b : Builder} (hphase : b.phase = .opened) :
    (s.setBuilder b).returnUnit = (s.setBuilder b).setReturned none := by
  simp [State.returnUnit, hphase]

/-- The Builder and output that the count of `w` in the open unit `b` leaves on top of `u` (44_unit_builder.md R225, R228
to R230): a branch or the cap closes the unit and it is returned, any other word leaves it open. -/
inductive Counted (b : Builder) (w : Word) (u : State) : State → Prop where
  | branch : isBranchWord w = true →
      Counted b w u ((u.setBuilder Builder.idle).setReturned (some ⟨b.start, b.n + 1, .branchExit, branchExit w b.cur⟩))
  | cap : isBranchWord w = false → b.max ≤ b.n + 1 →
      Counted b w u ((u.setBuilder Builder.idle).setReturned
        (some ⟨b.start, b.n + 1, .fallthroughCap, .fallthrough (b.cur + 4#32)⟩))
  | goesOn : isBranchWord w = false → b.n + 1 < b.max →
      Counted b w u ((u.setBuilder { b with n := b.n + 1, cur := b.cur + 4#32 }).setReturned none)

theorem counted_returnUnit {b : Builder} (hb : b.phase = .opened) (w : Word) (u : State) :
    Counted b w u (u.setBuilder (b.count w)).returnUnit := by
  rcases count_cases b w with ⟨hw, e⟩ | ⟨hw, hcap, e⟩ | ⟨hw, hcap, e⟩ <;> rw [e]
  · rw [returnUnit_of_closed rfl rfl]; exact .branch hw
  · rw [returnUnit_of_closed rfl rfl]; exact .cap hw hcap
  · rw [returnUnit_of_opened (b := { b with n := b.n + 1, cur := b.cur + 4#32 }) hb]; exact .goesOn hw hcap

/-- Everything a step that goes on leaves, with the unit it works in: the breakpoint close, or an instruction and the count
of its word. -/
theorem step_next_cases {s t : State} (h : step s = .next t) :
    (s.breakpointAt s.pc = true ∧ t = (s.setBuilder Builder.idle).setReturned (some ⟨s.openUnit.builder.start,
        s.openUnit.builder.n, .breakpointHit, .terminal s.openUnit.builder.cur⟩)) ∨
    (s.breakpointAt s.pc = false ∧ ∃ w u, s.fetch s.pc = some w ∧ exec (decodeWord w) s = .next u
      ∧ Counted s.openUnit.builder w u t) := by
  rcases step_eq_next h with ⟨hb, rfl⟩ | ⟨hb, w, -, hw, -, -⟩
  · exact .inl ⟨hb, returnUnit_of_closed rfl rfl⟩
  · rw [step_of_word hb hw] at h
    cases hu : exec (decodeWord w) s with
    | next u =>
      rw [hu] at h
      cases h
      exact .inr ⟨hb, w, u, hw, hu, counted_returnUnit (openUnit_phase s) w u⟩
    | fault | refused => rw [hu] at h; cases h

/-! ### The step at a breakpoint -/

/-- The step at a breakpoint goes on: it is the breakpoint close and nothing else. -/
theorem step_at_breakpoint {s : State} (hb : s.breakpointAt s.pc = true)
    (hcur : s.builder.phase = .opened → s.builder.cur = s.pc) :
    step s = .next ((s.setBuilder Builder.idle).setReturned
      (some ⟨s.openUnit.builder.start, s.openUnit.builder.n, .breakpointHit, .terminal s.pc⟩)) := by
  rw [step_of_breakpoint hb, returnUnit_of_closed rfl rfl, ← openUnit_builder_cur hcur]
  rfl

/-- What the breakpoint close reports, and that it changes nothing else (70_reset_and_hazards.md R303). -/
theorem breakpoint_close_frame (s t : State) (hs : (t.setBuilder s.builder).setReturned s.returned = s)
    (start : Word) (n : Nat) (exit : ExitDescriptor) :
    let u := (t.setBuilder Builder.idle).setReturned (some ⟨start, n, .breakpointHit, exit⟩)
    u.endedNormally = true ∧ u.returned.map ClosedUnit.exit = some exit ∧ u.builder.phase = .idle
      ∧ (u.setBuilder s.builder).setReturned s.returned = s :=
  ⟨rfl, rfl, rfl, hs⟩

/-- Settles O11: after the first step the Builder is Idle, so the second one meets the same breakpoint. -/
theorem stepStopsAtABreakpoint : Obligations.StepStopsAtABreakpoint := by
  intro s hb hcur stopped
  refine ⟨_, step_at_breakpoint hb hcur, breakpoint_close_frame s s rfl _ _ _, ?_⟩
  exact ⟨_, step_at_breakpoint hb nofun, breakpoint_close_frame s _ rfl _ _ _⟩

/-! ### Closing on a branch or the cap -/

/-- Settles O49: the word at `pc` is counted in the unit the step opened or went on with. -/
theorem unitClosesOnBranchOrCap : Obligations.UnitClosesOnBranchOrCap := by
  intro s t w hw hb h b
  have hinvoke (hne : s.builder.phase ≠ .opened) : b = Builder.invoke s.cfg s.pc s.maxInsns :=
    openUnit_builder_of_ne_opened hne
  refine ⟨fun hne => by rw [hinvoke hne]; exact ⟨rfl, rfl, rfl⟩, ?_⟩
  rcases step_next_cases h with ⟨hb', -⟩ | ⟨-, w', u, hw', -, hcount⟩
  · simp [hb] at hb'
  · obtain rfl : w' = w := Option.some.inj (hw'.symm.trans hw)
    cases hcount with
    | branch hbranch => exact ⟨fun _ => ⟨_, rfl⟩, by simp [hbranch], by simp [hbranch]⟩
    | cap hbranch hcap =>
      refine ⟨by simp [hbranch], fun _ _ => rfl, fun _ hlt => ?_⟩
      exact absurd hcap (Nat.not_le_of_lt hlt)
    | goesOn hbranch hcap =>
      refine ⟨by simp [hbranch], fun _ hle => ?_, fun _ _ => ⟨rfl, rfl⟩⟩
      exact absurd hle (Nat.not_le_of_lt hcap)

/-! ### The exit descriptor -/

/-- The field `w[27:24]` of a branch word is the number of its condition (30_encoding.md R94). -/
theorem condNumber_condOfWord (w : Word) : condNumber (condOfWord w) = (field w 24 4).toNat := by
  have hinv : bit w 27 = (field w 24 4).getLsbD 3 := by rw [getLsbD_field]; rfl
  have hsel : field w 24 3 = (field w 24 4).setWidth 3 := by
    refine field_eq_of_bit fun i hi => ?_
    rw [BitVec.getLsbD_setWidth, getLsbD_field, getLsbD_field]
    simp [hi, Nat.lt_succ_of_lt hi]
  rw [condNumber, condOfWord, condSelBits_ofBits, hinv, hsel]
  generalize field w 24 4 = f
  revert f
  decide

/-- A condition is determined by its number. -/
theorem condNumber_inj {c d : Cond} : condNumber c = condNumber d ↔ c = d := by
  refine ⟨fun h => ?_, congrArg _⟩
  obtain ⟨i, x⟩ := c
  obtain ⟨j, y⟩ := d
  revert h
  cases i <;> cases j <;> cases x <;> cases y <;> decide

theorem condOfWord_eq_al_iff (w : Word) : condOfWord w = .al ↔ (field w 24 4).toNat = 7 := by
  rw [← condNumber_condOfWord, ← condNumber_inj]; rfl

theorem condOfWord_eq_nv_iff (w : Word) : condOfWord w = .nv ↔ (field w 24 4).toNat = 15 := by
  rw [← condNumber_condOfWord, ← condNumber_inj]; rfl

/-- Settles O50: the descriptor is `branchExit`'s, its conditions told apart by their numbers. -/
theorem exitDescriptorOfABranch : Obligations.ExitDescriptorOfABranch := by
  intro s t w hw hb hcur hbranch h cc next target notTaken
  rcases step_next_cases h with ⟨hb', -⟩ | ⟨-, w', u, hw', -, hcount⟩
  · simp [hb] at hb'
  · obtain rfl : w' = w := Option.some.inj (hw'.symm.trans hw)
    have htarget : s.pc + 4#32 + displacement (field w' 0 24) = target := relTarget_eq s _
    have hexit : t.returned.map ClosedUnit.exit = some (branchExit w' s.pc) := by
      cases hcount with
      | branch => exact congrArg (fun a => some (branchExit w' a)) (openUnit_builder_cur hcur)
      | cap hno | goesOn hno => simp [hbranch] at hno
    rw [hexit, branchExit]
    simp only [condOfWord_eq_al_iff, condOfWord_eq_nv_iff, htarget]
    refine ⟨fun h15 => ?_, fun h15 h29 => ?_, fun h15 h29 => ?_⟩
    · exact congrArg some (if_pos h15)
    · rw [if_neg h15, if_pos h29]
    · rw [if_neg h15, if_neg (by simp [h29])]

/-! ### Open with nothing returned, or Idle with a unit -/

/-- A branch's exit is of one of the two forms R233 gives it. -/
theorem branchExit_form (w cur : Word) :
    (∃ taken notTaken, branchExit w cur = .direct taken notTaken)
      ∨ ∃ notTaken, branchExit w cur = .indirect notTaken := by
  simp only [branchExit]
  split
  · exact .inl ⟨_, _, rfl⟩
  · split
    · exact .inl ⟨_, _, rfl⟩
    · exact .inr ⟨_, rfl⟩

/-- A closed unit is returned before another opens, so the step does the same after its return. -/
theorem step_returnUnit {s : State} {reason : CloseReason} (h : s.builder.phase = .closed reason) :
    s.returnUnit.builder.phase = .idle ∧ step s = step s.returnUnit := by
  have hidle : s.returnUnit.builder = Builder.idle := by
    rcases returnUnit_cases s with ⟨_, _, e, _⟩ | ⟨hne, -⟩
    · exact e
    · exact absurd h (hne reason)
  have hopen : s.openUnit = s.returnUnit.openUnit := by
    simp [State.openUnit, h, hidle]
  exact ⟨by rw [hidle]; rfl, by rw [step, step, hopen]⟩

/-- Settles O58: the four ways a step ends. -/
theorem closedUnitIsReturnedAndTheBuilderIsIdle : Obligations.ClosedUnitIsReturnedAndTheBuilderIsIdle := by
  refine ⟨fun s t h => ?_, fun s reason hphase => step_returnUnit hphase⟩
  rcases step_next_cases h with ⟨-, rfl⟩ | ⟨-, w, u, -, -, hcount⟩
  · exact .inr ⟨rfl, _, rfl, rfl, _, rfl⟩
  · cases hcount with
    | branch => exact .inr ⟨rfl, _, rfl, rfl, branchExit_form w _⟩
    | cap => exact .inr ⟨rfl, _, rfl, rfl, _, rfl⟩
    | goesOn => exact .inl ⟨openUnit_phase s, rfl, rfl⟩

end Sys2Proof.Machine
end

section
/-! PROOFS. The emitted operations (44_unit_builder.md R240): applied to the state at the instruction's address, those of
each translator do what the shared operation of the instruction does; and how many of each kind there are. -/

namespace Sys2Proof.Machine

/-! ### Expressions -/

section Expressions

variable {s : State} {m : Word}

/-- A binary expression that raises nothing has the value of its operation. -/
theorem eval_bin_ok {op : BinOp} {x y : Expr} {xv yv : Word} (hx : x.eval s m = .ok xv) (hy : y.eval s m = .ok yv)
    (hsignal : op.signal s.cfg.divOverflow xv yv s.pc = none) :
    (Expr.bin op x y).eval s m = .ok (op.value s.C xv yv) := by
  simp only [Expr.eval, hx, hy, hsignal]

/-- A binary expression raises the signal of its operation. -/
theorem eval_bin_error {op : BinOp} {x y : Expr} {xv yv : Word} {g : Fault} (hx : x.eval s m = .ok xv)
    (hy : y.eval s m = .ok yv) (hsignal : op.signal s.cfg.divOverflow xv yv s.pc = some g) :
    (Expr.bin op x y).eval s m = .error g := by
  simp only [Expr.eval, hx, hy, hsignal]

/-- The address a translator computes is the effective address (42_memory_ops.md R170). -/
theorem eval_eaExpr (b : Reg) (off : BitVec 20) : (eaExpr b off).eval s m = .ok (s.ea b off) := by
  refine (eval_bin_ok rfl rfl rfl).trans (congrArg _ ?_)
  simp [BinOp.value, addValue, State.ea]

end Expressions

/-! ### One operation at a time -/

/-- The read of an access of either width (20_memory.md R53). -/
def State.readAt (s : State) : Width → Word → Option Word
  | .byte => s.memReadByte
  | .word => s.memReadWord

section Operations

variable {s t : State} {m v : Word} {e : Expr}

theorem applyFrom_regWrite (h : e.eval s m = .ok v) (g : Guard) (r : Reg) (ops : List Operation) :
    applyFrom s (.regWrite g r e :: ops) (t, m) = applyFrom s ops (if g.holds s then t.setReg r v else t, m) := by
  simp only [applyFrom, Operation.apply, h, raising, bindResult_next]

theorem applyFrom_regWrite_error {signal : Fault} (h : e.eval s m = .error signal) (g : Guard) (r : Reg)
    (ops : List Operation) : applyFrom s (.regWrite g r e :: ops) (t, m) = .fault signal := by
  simp only [applyFrom, Operation.apply, h, raising, bindResult_fault]

theorem applyFrom_highWrite (h : e.eval s m = .ok v) (ops : List Operation) :
    applyFrom s (.highWrite e :: ops) (t, m) = applyFrom s ops (t.setH v, m) := by
  simp only [applyFrom, Operation.apply, h, raising, bindResult_next]

theorem applyFrom_flagWrite {fe : FlagExpr} {flag : Bool} (h : fe.eval s m = .ok flag) (g : Guard) (f : FlagName)
    (ops : List Operation) :
    applyFrom s (.flagWrite g f fe :: ops) (t, m) = applyFrom s ops (if g.holds s then t.setFlag f flag else t, m) := by
  simp only [applyFrom, Operation.apply, h, raising, bindResult_next]

theorem applyFrom_transfer (h : e.eval s m = .ok v) (ops : List Operation) :
    applyFrom s (.transfer e :: ops) (t, m) = applyFrom s ops (t.setPc v, m) := by
  simp only [applyFrom, Operation.apply, h, raising, bindResult_next]

theorem applyFrom_transferIf {e' : Expr} {v' : Word} (h : e.eval s m = .ok v) (h' : e'.eval s m = .ok v') (cc : Cond)
    (ops : List Operation) :
    applyFrom s (.transferIf cc e e' :: ops) (t, m)
      = applyFrom s ops (t.setPc (if s.taken cc then v else v'), m) := by
  simp only [applyFrom, Operation.apply, h, h', raising, bindResult_next]

theorem applyFrom_memRead {width : Width} {d : Word} (h : e.eval s m = .ok v) (hread : s.readAt width v = some d)
    (ops : List Operation) : applyFrom s (.memRead width e :: ops) (t, m) = applyFrom s ops (t, d) := by
  cases width <;> rw [State.readAt] at hread <;>
    simp only [applyFrom, Operation.apply, h, raising, hread, bindResult_next]

theorem applyFrom_memRead_none {width : Width} (h : e.eval s m = .ok v) (hread : s.readAt width v = none)
    (ops : List Operation) :
    applyFrom s (.memRead width e :: ops) (t, m) = .fault (.memoryFault .load v s.pc) := by
  cases width <;> rw [State.readAt] at hread <;>
    simp only [applyFrom, Operation.apply, h, raising, hread, bindResult_next, bindResult_fault]

end Operations

/-! ### The operations of a register-class result -/

section DestOps

variable {s : State} {m : Word} {d : Expr}

theorem applyFrom_destOps_ok {v : Word} (h : d.eval s m = .ok v) (a : Reg) (rest : List Operation) :
    applyFrom s (destOps s.pc a d ++ rest) (s, m) = applyFrom s rest (s.finish a v, m) := by
  have hZ : (FlagExpr.zero d).eval s m = .ok (zeroFlag v) := by rw [FlagExpr.eval, h]; rfl
  have hN : (FlagExpr.negative d).eval s m = .ok (negativeFlag v) := by rw [FlagExpr.eval, h]; rfl
  refine (applyFrom_transfer rfl _).trans ((applyFrom_regWrite h _ _ _).trans ?_)
  exact (applyFrom_flagWrite hZ _ _ _).trans (applyFrom_flagWrite hN _ _ _)

theorem applyFrom_destOps_error {g : Fault} (h : d.eval s m = .error g) (a : Reg) (rest : List Operation) :
    applyFrom s (destOps s.pc a d ++ rest) (s, m) = .fault g :=
  (applyFrom_transfer rfl _).trans (applyFrom_regWrite_error h _ _ _)

end DestOps

/-! ### What the operations of each translator do -/

section Translators

variable {s : State} {a b : Reg} {cv : Expr} {c : Word}

/-- Moves, shifts and logic: one destination write. -/
theorem applyOps_destOps {d : Expr} {v : Word} (h : d.eval s 0#32 = .ok v) :
    applyOps (destOps s.pc a d) s = moveOp a v s := by
  simpa [applyOps, applyFrom, moveOp] using applyFrom_destOps_ok h a []

theorem applyOps_addOps {carry : Bool} (h : cv.eval s 0#32 = .ok c) :
    applyOps (addOps carry s.pc a b cv) s = addOp (carry && s.C) a b c s := by
  have hd := eval_bin_ok (op := .add carry) (x := .reg b) rfl h rfl
  have hC : (FlagExpr.addCarry (.bin (.add carry) (.reg b) cv) (.reg b)).eval s 0#32
      = .ok (addCarry (addValue (s.reg b) c (carry && s.C)) (s.reg b)) := by rw [FlagExpr.eval, hd]; rfl
  have hV : (FlagExpr.addOverflow (.bin (.add carry) (.reg b) cv) (.reg b) cv).eval s 0#32
      = .ok (addOverflow (addValue (s.reg b) c (carry && s.C)) (s.reg b) c) := by rw [FlagExpr.eval, hd, h]; rfl
  refine (applyFrom_destOps_ok hd a _).trans ?_
  exact (applyFrom_flagWrite hC _ _ _).trans (applyFrom_flagWrite hV _ _ _)

theorem applyOps_subOps {carry : Bool} (h : cv.eval s 0#32 = .ok c) :
    applyOps (subOps carry s.pc a b cv) s = subOp (carry && s.C) a b c s := by
  have hd := eval_bin_ok (op := .sub carry) (x := .reg b) rfl h rfl
  have hC : (FlagExpr.subCarry (.bin (.sub carry) (.reg b) cv) (.reg b)).eval s 0#32
      = .ok (subCarry (subValue (s.reg b) c (carry && s.C)) (s.reg b)) := by rw [FlagExpr.eval, hd]; rfl
  have hV : (FlagExpr.subOverflow (.bin (.sub carry) (.reg b) cv) (.reg b) cv).eval s 0#32
      = .ok (subOverflow (subValue (s.reg b) c (carry && s.C)) (s.reg b) c) := by rw [FlagExpr.eval, hd, h]; rfl
  refine (applyFrom_destOps_ok hd a _).trans ?_
  exact (applyFrom_flagWrite hC _ _ _).trans (applyFrom_flagWrite hV _ _ _)

theorem applyOps_mulOps {uns : Bool} (h : cv.eval s 0#32 = .ok c) :
    applyOps (mulOps uns s.pc a b cv) s = mulOp uns a b c s := by
  have hlow := eval_bin_ok (op := .mulLow uns) (x := .reg b) rfl h rfl
  have hhigh := eval_bin_ok (op := .mulHigh uns) (x := .reg b) rfl h rfl
  exact (applyFrom_destOps_ok hlow a _).trans (applyFrom_highWrite hhigh _)

/-- A divide raises its signal when its quotient is evaluated, before anything is written. -/
theorem applyOps_divOps {uns : Bool} (h : cv.eval s 0#32 = .ok c) :
    applyOps (divOps uns s.pc a b cv) s = divOp uns a b c s := by
  rcases divOp_cases uns a b c s with ⟨g, hg, e⟩ | ⟨hnone, e⟩ <;> rw [e]
  · exact applyFrom_destOps_error (eval_bin_error (op := .quot uns) (x := .reg b) rfl h hg) a _
  · have hquot := eval_bin_ok (op := .quot uns) (x := .reg b) rfl h hnone
    have hrem := eval_bin_ok (op := .rem uns) (x := .reg b) rfl h hnone
    exact (applyFrom_destOps_ok hquot a _).trans (applyFrom_highWrite hrem _)

/-- A load: its one access, then a destination write of what that read. -/
theorem applyOps_loadOps (width : Width) (off : BitVec 20) :
    applyOps (loadOps width s.pc a b off) s = loadOp (s.readAt width (s.ea b off)) a (s.ea b off) s := by
  have hea := eval_eaExpr (s := s) (m := 0#32) b off
  rcases loadOp_cases (s.readAt width (s.ea b off)) a (s.ea b off) s with ⟨hnone, e⟩ | ⟨d, hd, e⟩ <;> rw [e]
  · exact applyFrom_memRead_none hea hnone _
  · exact (applyFrom_memRead hea hd _).trans (applyFrom_destOps_ok (d := .loaded) rfl a [])

/-- The write of an access of either width (20_memory.md R53). -/
def State.writeAt (s : State) : Width → Word → Word → Result Memory
  | .byte, ea, w => s.memWriteByte ea (field w 0 8)
  | .word, ea, w => s.memWriteWord ea w

/-- A store: its one access, then the transfer. -/
theorem applyOps_storeOps (width : Width) (off : BitVec 20) :
    applyOps (storeOps width s.pc a b off) s = storeOp (s.writeAt width (s.ea b off) (s.reg a)) s := by
  have hwrite : applyOps (storeOps width s.pc a b off) s
      = bindResult (bindResult (s.writeAt width (s.ea b off) (s.reg a)) fun m => .next (s.setMem m, 0#32))
          (applyFrom s [.transfer (.lit (s.pc + 4#32))]) := by
    cases width <;>
      simp only [applyOps, storeOps, applyFrom, Operation.apply, eval_eaExpr, Expr.eval, raising, bindResult_next,
        State.writeAt]
  rw [hwrite, storeOp]
  cases s.writeAt width (s.ea b off) (s.reg a) <;> rfl

theorem applyFrom_linkOps (g : Guard) (rest : List Operation) :
    applyFrom s (linkOps g s.pc ++ rest) (s, 0#32) = applyFrom s rest (if g.holds s then s.writeLink else s, 0#32) := by
  refine (applyFrom_regWrite rfl _ _ _).trans ((applyFrom_flagWrite rfl _ _ _).trans
    ((applyFrom_flagWrite rfl _ _ _).trans ?_))
  cases g.holds s <;> rfl

/-- A branch: the link write under its guard, then the transfer on its condition (43_branch_ops.md R191, R196). -/
theorem applyOps_branchOps {link : Bool} {cc : Cond} {target : Expr} {dest : Word} (h : target.eval s 0#32 = .ok dest) :
    applyOps (branchOps s.cfg link cc s.pc target) s = branchOp link cc dest s := by
  rw [branchOp_eq]
  cases link
  · exact applyFrom_transferIf h rfl cc []
  · refine (applyFrom_linkOps _ _).trans ((applyFrom_transferIf h rfl cc []).trans ?_)
    cases hpolicy : s.cfg.linkWriteWhenNotTaken <;> simp [applyFrom, Guard.holds, State.next]

end Translators

/-! ### Every instruction -/

/-- What is emitted for an instruction does what executing it does: the case split follows the translators, and the
constructors it does not name are the branches. -/
theorem applyOps_of_emit {i : Instr} {s : State} {ops : List Operation} (h : emit s.cfg s.pc i = .ok ops) :
    applyOps ops s = exec i s := by
  cases i with
  | movReg | movH | movFlags | movImm | movhi | lslReg | lslImm | asrReg | asrImm | rorReg | rorImm | andReg | andImm
  | annReg | annImm | iorReg | iorImm | xorReg | xorImm => cases h; exact applyOps_destOps rfl
  | addReg | addImm | adcReg | adcImm => cases h; exact applyOps_addOps rfl
  | subReg | subImm | sbcReg | sbcImm => cases h; exact applyOps_subOps rfl
  | mulReg | mulImm | umulReg | umulImm => cases h; exact applyOps_mulOps rfl
  | divReg | divImm | udivReg | udivImm => cases h; exact applyOps_divOps rfl
  | fadReg | fadImm | fsbReg | fsbImm | fmlReg | fmlImm | fdvReg | fdvImm => cases h
  | ldw _ _ off => cases h; exact applyOps_loadOps .word off
  | ldb _ _ off => cases h; exact applyOps_loadOps .byte off
  | stw _ _ off => cases h; exact applyOps_storeOps .word off
  | stb _ _ off => cases h; exact applyOps_storeOps .byte off
  | _ => cases h; exact applyOps_branchOps rfl

/-- Only a placeholder emits nothing, and its error is UnsupportedOperation (44_unit_builder.md R232). -/
theorem emit_eq_error {cfg : Config} {a0 : Word} {i : Instr} {g : Fault} (h : emit cfg a0 i = .error g) :
    i ∈ floatingPointInstrs ∧ g = .unsupportedOperation a0 := by
  cases i with
  | fadReg | fadImm | fsbReg | fsbImm | fmlReg | fmlImm | fdvReg | fdvImm =>
    cases h; exact ⟨by simp [floatingPointInstrs], rfl⟩
  | _ => cases h

/-- Settles O51: instruction by instruction for the operations, and by the placeholders for an error. -/
theorem emittedOperationsPerformTheInstruction : Obligations.EmittedOperationsPerformTheInstruction := by
  refine fun i s => ⟨fun ops h => applyOps_of_emit h, fun signal h => ?_⟩
  obtain ⟨hi, rfl⟩ := emit_eq_error h
  exact exec_of_mem_floatingPointInstrs hi s

/-! ### The kinds of the operations -/

/-- `ops` holds exactly one control transfer and `accesses` memory accesses. -/
def HasKinds (ops : List Operation) (accesses : Nat) : Prop :=
  (ops.filter (fun op => op.kind == .controlTransfer)).length = 1
    ∧ (ops.filter (fun op => op.kind == .memoryAccess)).length = accesses

theorem hasKinds_destOps (a0 : Word) (a : Reg) (d : Expr) : HasKinds (destOps a0 a d) 0 := ⟨rfl, rfl⟩

theorem hasKinds_addOps (carry : Bool) (a0 : Word) (a b : Reg) (cv : Expr) : HasKinds (addOps carry a0 a b cv) 0 :=
  ⟨rfl, rfl⟩

theorem hasKinds_subOps (carry : Bool) (a0 : Word) (a b : Reg) (cv : Expr) : HasKinds (subOps carry a0 a b cv) 0 :=
  ⟨rfl, rfl⟩

theorem hasKinds_mulOps (uns : Bool) (a0 : Word) (a b : Reg) (cv : Expr) : HasKinds (mulOps uns a0 a b cv) 0 :=
  ⟨rfl, rfl⟩

theorem hasKinds_divOps (uns : Bool) (a0 : Word) (a b : Reg) (cv : Expr) : HasKinds (divOps uns a0 a b cv) 0 :=
  ⟨rfl, rfl⟩

theorem hasKinds_loadOps (width : Width) (a0 : Word) (a b : Reg) (off : BitVec 20) :
    HasKinds (loadOps width a0 a b off) 1 := ⟨rfl, rfl⟩

theorem hasKinds_storeOps (width : Width) (a0 : Word) (a b : Reg) (off : BitVec 20) :
    HasKinds (storeOps width a0 a b off) 1 := ⟨rfl, rfl⟩

theorem hasKinds_branchOps (cfg : Config) (link : Bool) (cc : Cond) (a0 : Word) (target : Expr) :
    HasKinds (branchOps cfg link cc a0 target) 0 := by
  cases link <;> exact ⟨rfl, rfl⟩

/-- The accesses of a word of the class its top bits give (30_encoding.md R81). -/
def accessesOf (w : Word) : Nat := if bit w 31 && !bit w 30 then 1 else 0

theorem accessesOf_regWord (u v : Bool) (op : AluSel) (a b c : Reg) : accessesOf (regWord u v op a b c) = 0 := by
  simp [accessesOf, bit, regWord, put]

theorem accessesOf_immWord (u v : Bool) (op : AluSel) (a b : Reg) (imm : BitVec 16) :
    accessesOf (immWord u v op a b imm) = 0 := by
  simp [accessesOf, bit, immWord, put]

theorem accessesOf_memWord (u v : Bool) (a b : Reg) (off : BitVec 20) : accessesOf (memWord u v a b off) = 1 := by
  simp [accessesOf, bit, memWord, put]

theorem accessesOf_brrWord (link : Bool) (cc : Cond) (c : Reg) : accessesOf (brrWord link cc c) = 0 := by
  simp [accessesOf, bit, brrWord, put]

theorem accessesOf_briWord (link : Bool) (cc : Cond) (off : BitVec 24) : accessesOf (briWord link cc off) = 0 := by
  simp [accessesOf, bit, briWord, put]

/-- The accesses of each instruction, by its format (42_memory_ops.md R175). -/
theorem accessesOf_encodeWord (i : Instr) :
    accessesOf (encodeWord i) = match i with
      | .ldw .. | .ldb .. | .stw .. | .stb .. => 1
      | _ => 0 := by
  cases i with
  | movReg | movH | movFlags | lslReg | asrReg | rorReg | andReg | annReg | iorReg | xorReg
  | addReg | adcReg | subReg | sbcReg | mulReg | umulReg | divReg | udivReg
  | fadReg | fsbReg | fmlReg | fdvReg => exact accessesOf_regWord _ _ _ _ _ _
  | movImm | movhi | lslImm | asrImm | rorImm | andImm | annImm | iorImm | xorImm
  | addImm | adcImm | subImm | sbcImm | mulImm | umulImm | divImm | udivImm
  | fadImm | fsbImm | fmlImm | fdvImm => exact accessesOf_immWord _ _ _ _ _ _
  | ldw | ldb | stw | stb => exact accessesOf_memWord _ _ _ _ _
  | bmiInd | beqInd | bcsInd | bvsInd | blsInd | bltInd | bleInd | bInd
  | bplInd | bneInd | bccInd | bvcInd | bhiInd | bgeInd | bgtInd | bnvInd
  | blmiInd | bleqInd | blcsInd | blvsInd | bllsInd | blltInd | blleInd | blInd
  | blplInd | blneInd | blccInd | blvcInd | blhiInd | blgeInd | blgtInd | blnvInd => exact accessesOf_brrWord _ _ _
  | _ => exact accessesOf_briWord _ _ _

/-- Settles O52: translator by translator, against the class of the instruction's word. -/
theorem oneTransferAndAtMostOneAccess : Obligations.OneTransferAndAtMostOneAccess := by
  intro cfg a0 i ops h
  change HasKinds ops (accessesOf (encodeWord i))
  rw [accessesOf_encodeWord]
  cases i with
  | movReg | movH | movFlags | movImm | movhi | lslReg | lslImm | asrReg | asrImm | rorReg | rorImm | andReg | andImm
  | annReg | annImm | iorReg | iorImm | xorReg | xorImm => cases h; exact hasKinds_destOps _ _ _
  | addReg | addImm | adcReg | adcImm => cases h; exact hasKinds_addOps _ _ _ _ _
  | subReg | subImm | sbcReg | sbcImm => cases h; exact hasKinds_subOps _ _ _ _ _
  | mulReg | mulImm | umulReg | umulImm => cases h; exact hasKinds_mulOps _ _ _ _ _
  | divReg | divImm | udivReg | udivImm => cases h; exact hasKinds_divOps _ _ _ _ _
  | fadReg | fadImm | fsbReg | fsbImm | fmlReg | fmlImm | fdvReg | fdvImm => cases h
  | ldw | ldb => cases h; exact hasKinds_loadOps _ _ _ _ _
  | stw | stb => cases h; exact hasKinds_storeOps _ _ _ _ _
  | _ => cases h; exact hasKinds_branchOps _ _ _ _ _

end Sys2Proof.Machine
end

section
/-! PROOFS. The invariant of the machine (44_unit_builder.md R220 to R234; 60_exceptions.md R276): every step keeps it. -/

namespace Sys2Proof.Machine

/-! ### The program a unit is built from -/

/-- The fetch mapping, the breakpoints and the parameters are those of `s`. -/
def SameProgram (s t : State) : Prop := t.fetchMap = s.fetchMap ∧ t.breakpoints = s.breakpoints ∧ t.cfg = s.cfg

section SameProgram

variable {s t u : State}

theorem SameProgram.trans (h : SameProgram s t) (h' : SameProgram t u) : SameProgram s u :=
  ⟨h'.1.trans h.1, h'.2.1.trans h.2.1, h'.2.2.trans h.2.2⟩

theorem SameProgram.fetch (h : SameProgram s t) (a : Word) : t.fetch a = s.fetch a := by
  rw [State.fetch, State.fetch, h.1]

theorem SameProgram.breakpointAt (h : SameProgram s t) (a : Word) : t.breakpointAt a = s.breakpointAt a := by
  rw [State.breakpointAt, State.breakpointAt, h.2.1]

theorem SameProgram.unitWord_iff (h : SameProgram s t) (start : Word) (k : Nat) (branch : Bool) :
    UnitWord t start k branch ↔ UnitWord s start k branch := by
  rw [UnitWord, UnitWord, h.fetch, h.breakpointAt, h.2.2]

theorem SameProgram.unitLimit_eq (h : SameProgram s t) (hcap : t.maxInsns = s.maxInsns) (start : Word) :
    unitLimit t start = unitLimit s start := by
  rw [unitLimit, unitLimit, hcap, h.2.2]

/-- No instruction changes the program (20_memory.md R66). -/
theorem sameProgram_of_exec {i : Instr} (h : exec i s = .next t) : SameProgram s t := by
  obtain ⟨-, hfetch, hbreak, -, hcfg, -, -⟩ := exec_sameSurround h
  exact ⟨hfetch, hbreak, hcfg⟩

theorem sameProgram_of_step (h : step s = .next t) : SameProgram s t := by
  obtain ⟨hfetch, hbreak, -, hcfg, -⟩ := stepKeepsThePlatform s t h
  exact ⟨hfetch, hbreak, hcfg⟩

end SameProgram

/-! ### Addresses and slots of a unit -/

@[simp] theorem unitAddr_zero (start : Word) : unitAddr start 0 = start := by simp [unitAddr]

theorem unitAddr_succ (start : Word) (k : Nat) : unitAddr start (k + 1) = unitAddr start k + 4#32 := by
  rw [unitAddr, unitAddr, Nat.mul_succ, BitVec.ofNat_add, BitVec.add_assoc]

/-- Bytes left on a page are a multiple of 4 from an aligned start, and at least one word (44_unit_builder.md R224). -/
theorem slotsLeft_pos {cfg : Config} {start : Word} (h : aligned start = true) : 1 ≤ slotsLeft cfg start := by
  have halign := (aligned_iff start).mp h
  have hpos : 0 < 2 ^ cfg.pageSlotBits.val := Nat.two_pow_pos _
  have hlt : start.toNat % cfg.pageSize < cfg.pageSize := Nat.mod_lt _ (Nat.mul_pos (by decide) hpos)
  have hmod : start.toNat % cfg.pageSize % 4 = 0 := by
    rw [Config.pageSize, Nat.mod_mul_right_mod, halign]
  have hsize : cfg.pageSize % 4 = 0 := Nat.mul_mod_right 4 _
  unfold slotsLeft
  omega

/-! ### The unit a step works in -/

/-- The unit `b` in progress keeps the rules so far. -/
structure InProgress (s : State) (b : Builder) : Prop where
  cur_eq : b.cur = unitAddr b.start b.n
  /-- `pc` stands at the next instruction to translate -/
  cur_eq_pc : b.cur = s.pc
  exit_eq : b.exit = none
  max_eq : b.max = unitLimit s b.start
  /-- there is room below the bound, or the unit is empty -/
  open_or_empty : b.n < b.max ∨ b.n = 0
  words : ∀ k < b.n, UnitWord s b.start k false

/-- Between steps the unit is open and keeps the rules, or the next step opens an empty one at `pc`. -/
theorem inProgress_openUnit {s : State} (h : BuilderInv s) : InProgress s s.openUnit.builder := by
  by_cases hopen : s.builder.phase = .opened
  · simp only [BuilderInv, hopen] at h
    obtain ⟨-, hexit, -, hroom, hmax, hcur, hpc, hwords⟩ := h
    rw [openUnit_builder_of_opened hopen]
    exact ⟨hcur, hpc, hexit, hmax, .inl hroom, hwords⟩
  · rw [openUnit_builder_of_ne_opened hopen]
    exact ⟨(unitAddr_zero _).symm, rfl, rfl, rfl, .inr rfl, nofun⟩

section InProgress

variable {s u : State} {b : Builder} {w : Word}

/-- A unit in progress whose next word can be fetched has room for it. -/
theorem InProgress.room (h : InProgress s b) (hcap : 1 ≤ s.maxInsns) (hw : s.fetch s.pc = some w) :
    b.n + 1 ≤ unitLimit s b.start := by
  rcases h.open_or_empty with hroom | hempty
  · exact h.max_eq ▸ hroom
  · have hstart : b.start = s.pc := by rw [← h.cur_eq_pc, h.cur_eq, hempty, unitAddr_zero]
    have hslots : 1 ≤ slotsLeft s.cfg b.start := slotsLeft_pos (hstart ▸ (fetch_eq_some.mp hw).1)
    rw [hempty]
    exact Nat.le_min.mpr ⟨hcap, hslots⟩

/-- The bound holds before the next word is there, too. -/
theorem InProgress.n_le (h : InProgress s b) : b.n ≤ unitLimit s b.start := by
  rcases h.open_or_empty with hroom | hempty
  · exact h.max_eq ▸ Nat.le_of_lt hroom
  · exact hempty ▸ Nat.zero_le _

/-- An instruction that completes is no placeholder, whose translation would stop the unit (44_unit_builder.md R232). -/
theorem emit_ne_error_of_exec {i : Instr} {s t : State} (h : exec i s = .next t) (cfg : Config) (a0 : Word) :
    emit cfg a0 i ≠ .error (.unsupportedOperation a0) := by
  intro he
  obtain ⟨hi, -⟩ := emit_eq_error he
  rw [exec_of_mem_floatingPointInstrs hi] at h
  cases h

/-- The word a step runs may stand in the unit, at the place it has there. -/
theorem InProgress.unitWord (h : InProgress s b) (hb : s.breakpointAt s.pc = false) (hw : s.fetch s.pc = some w)
    (hu : exec (decodeWord w) s = .next u) : UnitWord s b.start b.n (isBranchWord w) := by
  rw [UnitWord, ← h.cur_eq, h.cur_eq_pc]
  exact ⟨w, hw, rfl, hb, emit_ne_error_of_exec hu s.cfg⟩

/-- With a word that is no branch, the words so far are one more. -/
theorem InProgress.words_succ (h : InProgress s b) (hb : s.breakpointAt s.pc = false) (hw : s.fetch s.pc = some w)
    (hbranch : isBranchWord w = false) (hu : exec (decodeWord w) s = .next u) :
    ∀ k < b.n + 1, UnitWord s b.start k false :=
  Nat.forall_lt_succ_right.mpr ⟨h.words, hbranch ▸ h.unitWord hb hw hu⟩

/-- A word that is no branch leaves `pc` at the next instruction of the unit. -/
theorem InProgress.next_pc (h : InProgress s b) (hbranch : isBranchWord w = false)
    (hu : exec (decodeWord w) s = .next u) : u.pc = b.cur + 4#32 ∧ u.pc = unitAddr b.start (b.n + 1) := by
  have hnext : u.pc = b.cur + 4#32 := (fallsThrough_of_not_branch hbranch hu).trans (by rw [h.cur_eq_pc]; rfl)
  exact ⟨hnext, by rw [hnext, h.cur_eq, unitAddr_succ]⟩

end InProgress

/-! ### The Builder's part of the invariant -/

/-- A Builder that is Idle after a unit that keeps the rules. -/
theorem builderInv_of_returned {s : State} {u : ClosedUnit} (hphase : s.builder.phase = .idle)
    (hret : s.returned = some u) (h : ReturnedInv s u) : BuilderInv s := by
  simpa [BuilderInv, hphase, hret] using h

/-- The Builder's invariant after a step, by the way the step ends. -/
theorem builderInv_step {s t : State} (hcap : 1 ≤ s.maxInsns) (hinv : BuilderInv s) (h : step s = .next t) :
    BuilderInv t := by
  have hprog := sameProgram_of_step h
  obtain ⟨-, -, hmaxInsns, -⟩ := stepKeepsThePlatform s t h
  have hunit := inProgress_openUnit hinv
  have hopen := openUnit_phase s
  have hcases := step_next_cases h
  generalize s.openUnit.builder = b at hunit hopen hcases
  have hlimit := hprog.unitLimit_eq hmaxInsns b.start
  have hword {k : Nat} {branch : Bool} := (hprog.unitWord_iff b.start k branch).mpr
  rcases hcases with ⟨hb, rfl⟩ | ⟨hb, w, u, hw, hu, hcount⟩
  · exact builderInv_of_returned rfl rfl
      ⟨hlimit ▸ hunit.n_le, hunit.cur_eq_pc.symm.trans hunit.cur_eq, congrArg _ hunit.cur_eq_pc, hb,
        fun k hk => hword (hunit.words k hk)⟩
  · have hroom := hunit.room hcap hw
    cases hcount with
    | branch hbranch =>
      refine builderInv_of_returned rfl rfl ⟨hlimit ▸ hroom, b.n, rfl, fun k hk => hword (hunit.words k hk),
        hword (hbranch ▸ hunit.unitWord hb hw hu), w, ?_, congrArg (branchExit w) hunit.cur_eq⟩
      rw [hprog.fetch, ← hunit.cur_eq, hunit.cur_eq_pc, hw]
    | cap hbranch hfull =>
      obtain ⟨hnext, haddr⟩ := hunit.next_pc hbranch hu
      exact builderInv_of_returned rfl rfl
        ⟨hlimit ▸ hroom, Nat.succ_pos _, hlimit ▸ Nat.le_antisymm hroom (hunit.max_eq ▸ hfull), haddr,
          congrArg _ hnext.symm, fun k hk => hword (hunit.words_succ hb hw hbranch hu k hk)⟩
    | goesOn hbranch hlt =>
      obtain ⟨hnext, haddr⟩ := hunit.next_pc hbranch hu
      simp only [BuilderInv, State.setReturned_builder, State.setBuilder_builder, hopen]
      exact ⟨rfl, hunit.exit_eq, Nat.succ_pos _, hlt, hunit.max_eq.trans hlimit.symm, hnext.symm.trans haddr,
        hnext.symm, fun k hk => hword (hunit.words_succ hb hw hbranch hu k hk)⟩

/-! ### The whole invariant -/

/-- Instructions keep the canonical form of data memory: only a store writes it. -/
theorem exec_wf {i : Instr} {s t : State} (h : exec i s = .next t) (hwf : s.mem.wf = true) : t.mem.wf = true := by
  rcases exec_next_cases h with ⟨_, _, _, _, _, rfl⟩ | ⟨ea, w, -, rfl⟩ | ⟨ea, b, -, rfl⟩ | ⟨_, rfl | rfl⟩
  · exact hwf
  · exact Memory.wf_writeWord hwf ea w
  · exact Memory.wf_set hwf ea b
  · exact hwf
  · exact hwf

theorem step_wf {s t : State} (h : step s = .next t) (hwf : s.mem.wf = true) : t.mem.wf = true := by
  rcases step_eq_next h with ⟨-, rfl⟩ | ⟨-, w, u, -, hu, rfl⟩
  · simpa using hwf
  · simpa using exec_wf hu (by simpa using hwf)

/-- Settles O8: the platform is kept (O9), and the Builder's part is the one case split over a step. -/
theorem stepKeepsTheInvariant : Obligations.StepKeepsTheInvariant := by
  intro s t ⟨hmem, hfetchMap, hI, hcap, hbuilder⟩ h
  obtain ⟨hf, -, hm, -, hi, -⟩ := stepKeepsThePlatform s t h
  exact ⟨step_wf h hmem, hf ▸ hfetchMap, hi.trans hI, hm ▸ hcap, builderInv_step hcap hbuilder h⟩

end Sys2Proof.Machine
end

section
/-! PROOFS. Unit boundaries are invisible (44_unit_builder.md R245): up to the Builder a step is one turn of a machine that
has none, and that machine does not see the unit limits either. -/

namespace Sys2Proof.Machine

/-! ### Outcomes up to a function of the state -/

/-- Outcomes that agree up to `f` may be followed by continuations that turn agreement up to `f` into agreement up to
`g`. -/
theorem mapNext_bindResult_congr {α β γ δ : Type} {f : α → β} {g : γ → δ} {r r' : Result α} {k k' : α → Result γ}
    (h : mapNext f r = mapNext f r') (hk : ∀ a a', r = .next a → f a = f a' → mapNext g (k a) = mapNext g (k' a')) :
    mapNext g (bindResult r k) = mapNext g (bindResult r' k') := by
  cases r with
  | next a =>
    cases r' with
    | next a' => exact hk a a' rfl (Host.Outcome.next.inj h)
    | fault | refused => cases h
  | fault signal =>
    cases r' with
    | fault signal' => cases h; rfl
    | next | refused => cases h
  | refused reason =>
    cases r' with
    | refused reason' => cases h; rfl
    | next | fault => cases h

/-- A run is a step and the rest of the run. -/
theorem run_succ (k : Nat) (s : State) :
    (core.run (k + 1) s : Result State) = bindResult (step s) fun t => core.run k t := by
  cases h : step s with
  | next t => simp only [Host.Core.run, show core.step s = .next t from h]; rfl
  | fault signal => simp only [Host.Core.run, show core.step s = .fault signal from h]; rfl
  | refused reason => simp only [Host.Core.run, show core.step s = .refused reason from h]; rfl

/-! ### The machine without a Builder -/

/-- One turn without a Builder: nothing at a breakpoint, else the instruction at `pc` (60_exceptions.md R269). -/
def turn (s : State) : Result State :=
  if s.breakpointAt s.pc then .next s
  else match s.fetch s.pc with
    | none => .fault (.memoryFault .fetch s.pc s.pc)
    | some w => exec (decodeWord w) s

theorem turn_of_breakpoint {s : State} (hb : s.breakpointAt s.pc = true) : turn s = .next s := by
  simp [turn, hb]

theorem turn_of_fetch_eq_none {s : State} (hb : s.breakpointAt s.pc = false) (hf : s.fetch s.pc = none) :
    turn s = .fault (.memoryFault .fetch s.pc s.pc) := by
  simp [turn, hb, hf]

theorem turn_of_word {s : State} {w : Word} (hb : s.breakpointAt s.pc = false) (hf : s.fetch s.pc = some w) :
    turn s = exec (decodeWord w) s := by
  simp [turn, hb, hf]

@[simp] theorem forgetBuilder_returnUnit (s : State) (b : Builder) :
    (s.setBuilder b).returnUnit.forgetBuilder = s.forgetBuilder := by
  unfold State.returnUnit
  split <;> rfl

/-- A step is a turn, up to the Builder and its output. -/
theorem step_eq_turn (s : State) : mapNext State.forgetBuilder (step s) = mapNext State.forgetBuilder (turn s) := by
  cases hb : s.breakpointAt s.pc
  · cases hf : s.fetch s.pc with
    | none => rw [step_of_fetch_eq_none hb hf, turn_of_fetch_eq_none hb hf]
    | some w => simp only [step_of_word hb hf, turn_of_word hb hf, mapNext_mapNext, forgetBuilder_returnUnit]
  · rw [step_of_breakpoint hb, turn_of_breakpoint hb, mapNext_next, mapNext_next, forgetBuilder_returnUnit]

/-! ### What a turn does not see -/

/-- Instructions do not see the Builder. -/
theorem exec_forgetBuilder (i : Instr) (s : State) :
    exec i s.forgetBuilder = mapNext State.forgetBuilder (exec i s) :=
  exec_setBuilder_setReturned i s Builder.idle none

/-- Turns do not see the Builder, the cap and the page size. -/
theorem turn_forgetUnits (s : State) : turn s.forgetUnits = mapNext State.forgetUnits (turn s) := by
  cases hb : s.breakpointAt s.pc
  · cases hf : s.fetch s.pc with
    | none => rw [turn_of_fetch_eq_none hb hf, turn_of_fetch_eq_none (s := s.forgetUnits) hb hf]; rfl
    | some w =>
      rw [turn_of_word hb hf, turn_of_word (s := s.forgetUnits) hb hf]
      exact exec_setUnits s Builder.idle none 1 0 (decodeWord w)
  · rw [turn_of_breakpoint hb, turn_of_breakpoint (s := s.forgetUnits) hb, mapNext_next]

theorem forgetUnits_forgetBuilder (s : State) : s.forgetBuilder.forgetUnits = s.forgetUnits := rfl

/-- A step is a turn from the state without unit boundaries, up to those. -/
theorem step_forgetUnits (s : State) : mapNext State.forgetUnits (step s) = turn s.forgetUnits := by
  have h := congrArg (mapNext State.forgetUnits) (step_eq_turn s)
  simp only [mapNext_mapNext, forgetUnits_forgetBuilder] at h
  exact h.trans (turn_forgetUnits s).symm

/-- Settles O56, by induction on the number of steps. -/
theorem unitBoundariesAreInvisible : Obligations.UnitBoundariesAreInvisible := by
  intro k
  induction k with
  | zero => exact fun s s' h => congrArg Host.Outcome.next h
  | succ k ih =>
    intro s s' h
    have hstep : mapNext State.forgetUnits (step s) = mapNext State.forgetUnits (step s') := by
      rw [step_forgetUnits, step_forgetUnits, h]
    rw [run_succ, run_succ]
    exact mapNext_bindResult_congr hstep fun t t' _ ht => ih t t' ht

end Sys2Proof.Machine
end

section
/-! PROOFS. One invocation of the Builder (44_unit_builder.md R225): what each turn of its loop does, and the five ways the
invocation ends. -/

namespace Sys2Proof.Machine

/-! ### One turn of the loop -/

/-- The word at `a` has no breakpoint and is translated into `ops` (44_unit_builder.md R225). -/
def Emits (s : State) (a w : Word) (ops : List Operation) : Prop :=
  s.breakpointAt a = false ∧ s.fetch a = some w ∧ emit s.cfg a (decodeWord w) = .ok ops

section Turn

variable {s : State} {b : Builder} {w : Word} {ops : List Operation} (fuel : Nat) (done : List (List Operation))

theorem buildLoop_of_breakpoint (hb : s.breakpointAt b.cur = true) :
    buildLoop s (fuel + 1) b done = (b.closeBreakpoint, done) := by
  simp [buildLoop, hb]

theorem buildLoop_of_unmapped (hb : s.breakpointAt b.cur = false) (hf : s.fetch b.cur = none) :
    buildLoop s (fuel + 1) b done = (b.abort (.memoryFault .fetch b.cur b.cur), done) := by
  simp [buildLoop, hb, hf]

theorem buildLoop_of_placeholder {signal : Fault} (hb : s.breakpointAt b.cur = false) (hf : s.fetch b.cur = some w)
    (he : emit s.cfg b.cur (decodeWord w) = .error signal) :
    buildLoop s (fuel + 1) b done = (b.abort signal, done) := by
  simp [buildLoop, hb, hf, he]

theorem buildLoop_of_branch (h : Emits s b.cur w ops) (hw : isBranchWord w = true) :
    buildLoop s (fuel + 1) b done = (b.count w, done ++ [ops]) := by
  obtain ⟨hb, hf, he⟩ := h
  simp [buildLoop, hb, hf, he, Builder.count, hw]

theorem buildLoop_of_cap (h : Emits s b.cur w ops) (hw : isBranchWord w = false) (hcap : b.max ≤ b.n + 1) :
    buildLoop s (fuel + 1) b done = (b.count w, done ++ [ops] ++ [[.transfer (.lit (b.cur + 4#32))]]) := by
  obtain ⟨hb, hf, he⟩ := h
  simp [buildLoop, hb, hf, he, Builder.count, hw, hcap]

theorem buildLoop_of_goesOn (hopen : b.phase = .opened) (h : Emits s b.cur w ops) (hw : isBranchWord w = false)
    (hcap : b.n + 1 < b.max) :
    buildLoop s (fuel + 1) b done
      = buildLoop s fuel { b with n := b.n + 1, cur := b.cur + 4#32 } (done ++ [ops]) := by
  obtain ⟨hb, hf, he⟩ := h
  simp [buildLoop, hb, hf, he, Builder.count, hw, Nat.not_le_of_lt hcap, hopen]

end Turn

/-! ### The Builder between turns -/

/-- The Builder that has translated `n` words from `start` without closing. -/
def midUnit (start : Word) (max n : Nat) : Builder := ⟨.opened, start, unitAddr start n, n, max, none⟩

theorem midUnit_zero (cfg : Config) (start : Word) (cap : Nat) :
    Builder.invoke cfg start cap = midUnit start (min cap (slotsLeft cfg start)) 0 := by
  simp [Builder.invoke, midUnit]

theorem midUnit_succ (start : Word) (max n : Nat) :
    midUnit start max (n + 1) = { midUnit start max n with n := n + 1, cur := unitAddr start n + 4#32 } := by
  simp [midUnit, unitAddr_succ]

/-! ### What the loop answers -/

/-- The answer of an invocation whose loop ended so (44_unit_builder.md R241, R243). -/
def answerOf (r : Builder × List (List Operation)) : BuildResult :=
  match r.1.phase, r.1.exit with
  | .closed (.aborted signal), _ => .error signal
  | .closed reason, some exit => .unit ⟨r.1.start, r.1.n, r.2, exit⟩ reason
  | _, _ => .error (.memoryFault .fetch r.1.cur r.1.cur)

theorem build_eq (s : State) (start : Word) (cap : Nat) :
    build s start cap = answerOf (buildLoop s (min cap (slotsLeft s.cfg start) + 1)
      (midUnit start (min cap (slotsLeft s.cfg start)) 0) []) := by
  rw [← midUnit_zero]
  rfl

/-- The words from `start` on that were translated into `done`: none of them ends a unit. -/
def StraightLine (s : State) (start : Word) (done : List (List Operation)) : Prop :=
  ∀ k ops, done[k]? = some ops → ∃ w, Emits s (unitAddr start k) w ops ∧ isBranchWord w = false

theorem straightLine_nil (s : State) (start : Word) : StraightLine s start [] := by
  simp [StraightLine]

theorem StraightLine.concat {s : State} {start w : Word} {done : List (List Operation)} {ops : List Operation}
    (h : StraightLine s start done) (he : Emits s (unitAddr start done.length) w ops) (hw : isBranchWord w = false) :
    StraightLine s start (done ++ [ops]) := by
  intro k ops' hk
  rcases Nat.lt_trichotomy k done.length with hlt | rfl | hgt
  · exact h k ops' (by rwa [List.getElem?_append_left hlt] at hk)
  · obtain rfl : ops = ops' := by simpa using hk
    exact ⟨w, he, hw⟩
  · simp [List.getElem?_append_right (Nat.le_of_lt hgt), Nat.sub_ne_zero_of_lt hgt] at hk

/-- The five ways an invocation with bound `max` ends once it has translated the words of `done` and gone on
(44_unit_builder.md R225, R229 to R233). -/
inductive Answer (s : State) (start : Word) (max : Nat) (done : List (List Operation)) : BuildResult → Prop where
  | breakpoint : s.breakpointAt (unitAddr start done.length) = true →
      Answer s start max done
        (.unit ⟨start, done.length, done, .terminal (unitAddr start done.length)⟩ .breakpointHit)
  | unmapped : s.breakpointAt (unitAddr start done.length) = false → s.fetch (unitAddr start done.length) = none →
      Answer s start max done (.error (.memoryFault .fetch (unitAddr start done.length) (unitAddr start done.length)))
  | placeholder {w : Word} : s.breakpointAt (unitAddr start done.length) = false →
      s.fetch (unitAddr start done.length) = some w →
      emit s.cfg (unitAddr start done.length) (decodeWord w)
        = .error (.unsupportedOperation (unitAddr start done.length)) →
      Answer s start max done (.error (.unsupportedOperation (unitAddr start done.length)))
  | branch {w : Word} {ops : List Operation} : Emits s (unitAddr start done.length) w ops → isBranchWord w = true →
      Answer s start max done
        (.unit ⟨start, done.length + 1, done ++ [ops], branchExit w (unitAddr start done.length)⟩ .branchExit)
  | cap {w : Word} {ops : List Operation} : Emits s (unitAddr start done.length) w ops → isBranchWord w = false →
      max ≤ done.length + 1 →
      Answer s start max done
        (.unit ⟨start, done.length + 1, done ++ [ops] ++ [[.transfer (.lit (unitAddr start done.length + 4#32))]],
          .fallthrough (unitAddr start done.length + 4#32)⟩ .fallthroughCap)

/-- A turn ends the invocation, or translates one more word and goes on below the bound. -/
theorem buildLoop_turn (s : State) (start : Word) (max fuel : Nat) (done : List (List Operation)) :
    Answer s start max done (answerOf (buildLoop s (fuel + 1) (midUnit start max done.length) done)) ∨
    ∃ w ops, Emits s (unitAddr start done.length) w ops ∧ isBranchWord w = false ∧ done.length + 1 < max
      ∧ buildLoop s (fuel + 1) (midUnit start max done.length) done
          = buildLoop s fuel (midUnit start max (done ++ [ops]).length) (done ++ [ops]) := by
  cases hb : s.breakpointAt (unitAddr start done.length)
  · cases hf : s.fetch (unitAddr start done.length) with
    | none =>
      rw [buildLoop_of_unmapped (b := midUnit start max done.length) fuel done hb hf]
      exact .inl (.unmapped hb hf)
    | some w =>
      cases he : emit s.cfg (unitAddr start done.length) (decodeWord w) with
      | error signal =>
        obtain ⟨-, rfl⟩ := emit_eq_error he
        rw [buildLoop_of_placeholder (b := midUnit start max done.length) fuel done hb hf he]
        exact .inl (.placeholder hb hf he)
      | ok ops =>
        have hemits : Emits s (unitAddr start done.length) w ops := ⟨hb, hf, he⟩
        rcases count_cases (midUnit start max done.length) w with ⟨hw, hcount⟩ | ⟨hw, hcap, hcount⟩ | ⟨hw, hcap, -⟩
        · rw [buildLoop_of_branch (b := midUnit start max done.length) fuel done hemits hw, hcount]
          exact .inl (.branch hemits hw)
        · rw [buildLoop_of_cap (b := midUnit start max done.length) fuel done hemits hw hcap, hcount]
          exact .inl (.cap hemits hw hcap)
        · refine .inr ⟨w, ops, hemits, hw, hcap, ?_⟩
          rw [buildLoop_of_goesOn (b := midUnit start max done.length) fuel done rfl hemits hw hcap,
            List.length_append, List.length_singleton, midUnit_succ]
          rfl
  · rw [buildLoop_of_breakpoint (b := midUnit start max done.length) fuel done hb]
    exact .inl (.breakpoint hb)

/-- The loop ends within its turns, by induction on them (44_unit_builder.md R221). -/
theorem buildLoop_answer {s : State} {start : Word} {max : Nat} :
    ∀ (fuel : Nat) (done : List (List Operation)), StraightLine s start done → done.length < max ∨ done.length = 0 →
      max < done.length + fuel →
      ∃ done', StraightLine s start done' ∧ (done'.length < max ∨ done'.length = 0)
        ∧ Answer s start max done' (answerOf (buildLoop s fuel (midUnit start max done.length) done))
  | 0, done, _, hroom, hfuel => by omega
  | fuel + 1, done, hline, hroom, hfuel => by
    rcases buildLoop_turn s start max fuel done with hanswer | ⟨w, ops, hemits, hw, hcap, hnext⟩
    · exact ⟨done, hline, hroom, hanswer⟩
    · rw [hnext]
      have hlen : (done ++ [ops]).length = done.length + 1 := by simp
      exact buildLoop_answer fuel (done ++ [ops]) (hline.concat hemits hw) (.inl (hlen ▸ hcap)) (by omega)

/-- Every invocation ends in one of the five ways, after words that may go on, below its bound or at the start. -/
theorem build_answer (s : State) (start : Word) (cap : Nat) :
    ∃ done, StraightLine s start done
      ∧ (done.length < min cap (slotsLeft s.cfg start) ∨ done.length = 0)
      ∧ Answer s start (min cap (slotsLeft s.cfg start)) done (build s start cap) := by
  rw [build_eq]
  exact buildLoop_answer _ [] (straightLine_nil s start) (.inr rfl) (by simp)

/-! ### The unit rules -/

/-- Translated words are where the unit says (44_unit_builder.md R234). -/
theorem StraightLine.word {s : State} {start : Word} {done : List (List Operation)} (h : StraightLine s start done)
    (rest : List (List Operation)) {k : Nat} (hk : k < done.length) :
    ∃ w ops, Emits s (unitAddr start k) w ops ∧ (done ++ rest)[k]? = some ops ∧ isBranchWord w = false := by
  obtain ⟨w, hemits, hw⟩ := h k done[k] (List.getElem?_eq_getElem hk)
  exact ⟨w, done[k], hemits, by rw [List.getElem?_append_left hk, List.getElem?_eq_getElem hk], hw⟩

/-- A bound by the cap and the slots left is a bound by the cap and by the page (44_unit_builder.md R224). -/
theorem le_cap_and_page {cfg : Config} {start : Word} {cap n : Nat} (h : n ≤ min cap (slotsLeft cfg start)) :
    n ≤ cap ∧ 4 * n ≤ cfg.pageSize - start.toNat % cfg.pageSize := by
  unfold slotsLeft at h
  omega

/-- Where a word is fetched there is room for it in the unit: an empty unit starts at an aligned address. -/
theorem Emits.room {s : State} {start w : Word} {n cap : Nat} {ops : List Operation}
    (h : Emits s (unitAddr start n) w ops) (hcap : 1 ≤ cap) (hroom : n < min cap (slotsLeft s.cfg start) ∨ n = 0) :
    n + 1 ≤ min cap (slotsLeft s.cfg start) := by
  rcases hroom with hlt | rfl
  · exact hlt
  · obtain ⟨-, hf, -⟩ := h
    rw [unitAddr_zero] at hf
    exact Nat.le_min.mpr ⟨hcap, slotsLeft_pos (fetch_eq_some.mp hf).1⟩

/-- Settles O54: the five ways an invocation ends. -/
theorem builtUnitsKeepTheUnitRules : Obligations.BuiltUnitsKeepTheUnitRules := by
  intro s start cap hcap
  obtain ⟨done, hline, hroom, hanswer⟩ := build_answer s start cap
  have hless : done.length < cap := by omega
  generalize build s start cap = r at hanswer
  cases hanswer with
  | breakpoint hb =>
    obtain ⟨hn, hpage⟩ := le_cap_and_page (cfg := s.cfg) (start := start) (cap := cap) (n := done.length) (by omega)
    refine ⟨rfl, hn, hpage, .inr (.inr rfl), by simp, by simp, fun k hk => ?_⟩
    obtain ⟨w, ops, ⟨hbk, hfk, hek⟩, hget, hw⟩ := hline.word [] hk
    exact ⟨w, ops, hfk, hbk, hek, by simpa using hget, by simp [hw]⟩
  | unmapped hb hf => exact ⟨done.length, hless, hb, .inl ⟨hf, rfl⟩⟩
  | placeholder hb hf he => exact ⟨done.length, hless, hb, .inr ⟨rfl, _, hf, he⟩⟩
  | @branch w ops hemits hw =>
    obtain ⟨hn, hpage⟩ := le_cap_and_page (hemits.room hcap hroom)
    refine ⟨rfl, hn, hpage, .inr (.inl rfl), by simp, by simp, fun k hk => ?_⟩
    rcases Nat.lt_succ_iff_lt_or_eq.mp hk with hlt | rfl
    · obtain ⟨w', ops', ⟨hbk, hfk, hek⟩, hget, hw'⟩ := hline.word [ops] hlt
      exact ⟨w', ops', hfk, hbk, hek, hget, by simp [hw', Nat.ne_of_lt hlt]⟩
    · obtain ⟨hbk, hfk, hek⟩ := hemits
      exact ⟨w, ops, hfk, hbk, hek, by simp, by simp [hw]⟩
  | @cap w ops hemits hw hfull =>
    obtain ⟨hn, hpage⟩ := le_cap_and_page (hemits.room hcap hroom)
    refine ⟨rfl, hn, hpage, .inl rfl, by simp, by simp, fun k hk => ?_⟩
    obtain ⟨w', ops', ⟨hbk, hfk, hek⟩, hget, hw'⟩ := (hline.concat hemits hw).word _ (by simpa using hk)
    exact ⟨w', ops', hfk, hbk, hek, hget, by simp [hw']⟩

end Sys2Proof.Machine
end

section
/-! PROOFS. Running a unit (44_unit_builder.md R240, R245): its operations, list by list, do what the steps do, up to the
Builder and its output. -/

namespace Sys2Proof.Machine

/-! ### One instruction -/

/-- A turn does not see the Builder. -/
theorem turn_forgetBuilder (s : State) : turn s.forgetBuilder = mapNext State.forgetBuilder (turn s) := by
  cases hb : s.breakpointAt s.pc
  · cases hf : s.fetch s.pc with
    | none => rw [turn_of_fetch_eq_none hb hf, turn_of_fetch_eq_none (s := s.forgetBuilder) hb hf]; rfl
    | some w =>
      rw [turn_of_word hb hf, turn_of_word (s := s.forgetBuilder) hb hf]
      exact exec_forgetBuilder (decodeWord w) s
  · rw [turn_of_breakpoint hb, turn_of_breakpoint (s := s.forgetBuilder) hb, mapNext_next]

/-- A step is a turn from the state without a Builder. -/
theorem step_forgetBuilder (s : State) : mapNext State.forgetBuilder (step s) = turn s.forgetBuilder :=
  (step_eq_turn s).trans (turn_forgetBuilder s).symm

section Emits

variable {s t : State} {a w : Word} {ops : List Operation}

/-- What is emitted at `a` is emitted there in every state of the same program. -/
theorem Emits.of_sameProgram (h : Emits s a w ops) (hprog : SameProgram s t) : Emits t a w ops := by
  rwa [Emits, hprog.fetch, hprog.breakpointAt, hprog.2.2]

/-- The operations emitted at `pc` do one turn. -/
theorem Emits.applyOps_eq_turn (h : Emits s s.pc w ops) : applyOps ops s = turn s := by
  obtain ⟨hb, hf, he⟩ := h
  rw [applyOps_of_emit he, turn_of_word hb hf]

/-- So they do one step, from states that differ in the Builder and its output. -/
theorem Emits.applyOps_eq_step (h : Emits s s.pc w ops) (ht : s.forgetBuilder = t.forgetBuilder) :
    mapNext State.forgetBuilder (applyOps ops s) = mapNext State.forgetBuilder (step t) := by
  rw [h.applyOps_eq_turn, ← turn_forgetBuilder, ht, step_forgetBuilder]

/-- After a word that is no branch the program is the same and `pc` is at the next word. -/
theorem Emits.applyOps_next {u : State} (h : Emits s s.pc w ops) (hw : isBranchWord w = false)
    (hu : applyOps ops s = .next u) : SameProgram s u ∧ u.pc = s.pc + 4#32 := by
  obtain ⟨hb, hf, he⟩ := h
  rw [applyOps_of_emit he] at hu
  exact ⟨sameProgram_of_exec hu, fallsThrough_of_not_branch hw hu⟩

end Emits

/-! ### Lists of operations -/

/-- From any state of the program of `s` with `pc` at `a`, applying `lists` does what `m` steps do, up to the Builder and
its output. -/
def RunsLike (s : State) (a : Word) (lists : List (List Operation)) (m : Nat) : Prop :=
  ∀ t t' : State, SameProgram s t → t.pc = a → t.forgetBuilder = t'.forgetBuilder →
    mapNext State.forgetBuilder (runOperations lists t) = mapNext State.forgetBuilder (core.run m t')

theorem runsLike_nil (s : State) (a : Word) : RunsLike s a [] 0 :=
  fun _ _ _ _ ht => congrArg Host.Outcome.next ht

/-- The continuation of a unit that closed at its cap is no step: `pc` is there already (44_unit_builder.md R230). -/
theorem runsLike_continuation (s : State) (a : Word) : RunsLike s a [[.transfer (.lit a)]] 0 := by
  intro t t' _ hpc ht
  have hrun : runOperations [[.transfer (.lit a)]] t = .next (t.setPc t.pc) := by rw [hpc]; rfl
  rw [hrun]
  exact congrArg Host.Outcome.next ht

section RunsLike

variable {s : State} {a w : Word} {ops : List Operation} {rest : List (List Operation)} {m : Nat}

/-- The last word of a unit, wherever it goes. -/
theorem runsLike_last (h : Emits s a w ops) : RunsLike s a [ops] 1 := by
  intro t t' hprog hpc ht
  have hops : Emits t t.pc w ops := hpc ▸ h.of_sameProgram hprog
  rw [run_succ, runOperations]
  exact mapNext_bindResult_congr (hops.applyOps_eq_step ht) fun u u' _ hu => congrArg Host.Outcome.next hu

/-- A word that is no branch, and what follows it. -/
theorem runsLike_cons (h : Emits s a w ops) (hw : isBranchWord w = false) (hrest : RunsLike s (a + 4#32) rest m) :
    RunsLike s a (ops :: rest) (m + 1) := by
  intro t t' hprog hpc ht
  have hops : Emits t t.pc w ops := hpc ▸ h.of_sameProgram hprog
  rw [run_succ, runOperations]
  refine mapNext_bindResult_congr (hops.applyOps_eq_step ht) fun u u' hnext hu => ?_
  obtain ⟨hprog', hpc'⟩ := hops.applyOps_next hw hnext
  exact hrest u u' (hprog.trans hprog') (by rw [hpc', hpc]) hu

end RunsLike

theorem unitAddr_next (a : Word) (k : Nat) : unitAddr (a + 4#32) k = unitAddr a (k + 1) := by
  rw [unitAddr_succ, unitAddr, unitAddr, add_right_comm]

theorem straightLine_cons {s : State} {a : Word} {ops : List Operation} {done : List (List Operation)}
    (h : StraightLine s a (ops :: done)) :
    (∃ w, Emits s a w ops ∧ isBranchWord w = false) ∧ StraightLine s (a + 4#32) done := by
  refine ⟨?_, fun k ops' hk => ?_⟩
  · simpa using h 0 ops rfl
  · simpa only [unitAddr_next] using h (k + 1) ops' (by simpa using hk)

/-- The straight line of a unit, by induction on its words, and what follows it. -/
theorem runsLike_append {s : State} {rest : List (List Operation)} {m : Nat} :
    ∀ {done : List (List Operation)} {a : Word}, StraightLine s a done →
      RunsLike s (unitAddr a done.length) rest m → RunsLike s a (done ++ rest) (done.length + m)
  | [], a, _, hrest => by simpa using hrest
  | ops :: done, a, hline, hrest => by
    obtain ⟨⟨w, hemits, hw⟩, htail⟩ := straightLine_cons hline
    have hdone : RunsLike s (a + 4#32) (done ++ rest) (done.length + m) :=
      runsLike_append htail (by rwa [unitAddr_next])
    rw [List.length_cons, Nat.add_right_comm]
    exact runsLike_cons hemits hw hdone

/-- Settles O55: the three ways an invocation gives a unit, each a straight line and its end. -/
theorem runningAUnitIsSteppingThroughIt : Obligations.RunningAUnitIsSteppingThroughIt := by
  intro s u reason hbuild
  suffices h : RunsLike s s.pc u.operations u.n from h s s ⟨rfl, rfl, rfl⟩ rfl rfl
  obtain ⟨done, hline, -, hanswer⟩ := build_answer s s.pc s.maxInsns
  rw [hbuild] at hanswer
  cases hanswer with
  | breakpoint => simpa using runsLike_append hline (runsLike_nil s _)
  | branch hemits => exact runsLike_append hline (runsLike_last hemits)
  | cap hemits hw =>
    have hlast := hline.concat hemits hw
    have hend := runsLike_continuation s (unitAddr s.pc done.length + 4#32)
    rw [← unitAddr_succ] at hend ⊢
    simpa using runsLike_append hlast (by simpa using hend)

end Sys2Proof.Machine
end

section
/-! PROOFS. Building again (44_unit_builder.md R244): a unit depends on the instructions and breakpoints of its own slots,
and its operations do not see the Builder. -/

namespace Sys2Proof.Machine

/-! ### What counting a word reads: the instruction, not the ignored bits (30_encoding.md R95) -/

/-- Words of one instruction are alike in or out of the branch class. -/
theorem isBranchWord_congr {v w : Word} (h : decodeWord v = decodeWord w) : isBranchWord v = isBranchWord w := by
  have hclear (x : Word) : isBranchWord (encodeWord (decodeWord x)) = isBranchWord x := by
    have hflip : x ^^^ (x &&& ignoredBits x) = x &&& ~~~ignoredBits x := by
      ext k
      cases hk : x[k] <;> simp [hk]
    obtain ⟨-, hx⟩ := ignoredBitsNeverMatter x x
    rw [encodeInvertsDecodeUpToIgnoredBits, ← hflip, hx]
  rw [← hclear v, h, hclear]

/-- The exit descriptor of a branch word reads its condition, bit 29, and under that the offset. -/
theorem branchExit_congr_fields {v w : Word} (hcond : condOfWord v = condOfWord w) (hu : bit v 29 = bit w 29)
    (hoff : bit w 29 = true → field v 0 24 = field w 0 24) (cur : Word) : branchExit v cur = branchExit w cur := by
  cases h29 : bit w 29
  · simp [branchExit, hcond, hu, h29]
  · simp [branchExit, hcond, hu, h29, hoff h29]

/-- None of those is an ignored bit. -/
theorem branchExit_clear {w : Word} (hw : isBranchWord w = true) (cur : Word) :
    branchExit (encodeWord (decodeWord w)) cur = branchExit w cur := by
  obtain ⟨h31, h30⟩ : bit w 31 = true ∧ bit w 30 = true := by simpa [isBranchWord] using hw
  rw [encodeInvertsDecodeUpToIgnoredBits, ignoredBits_eq, h31, h30]
  cases h29 : bit w 29
  · have hhead : ∀ k, 24 ≤ k → k < 32 → bit (w &&& ~~~(0x00FFFFF0 : Word)) k = bit w k := by
      intro k hlo hhi
      have hk : bit (~~~(0x00FFFFF0 : Word)) k = true := by interval_cases k <;> rfl
      rw [bit_and, hk, Bool.and_true]
    have hsel : field (w &&& ~~~(0x00FFFFF0 : Word)) 24 3 = field w 24 3 := by
      rw [field_and]
      exact BitVec.and_allOnes
    refine branchExit_congr_fields ?_ (hhead 29 (by decide) (by decide)) (by simp [h29]) cur
    exact congrArg₂ Cond.mk (hhead 27 (by decide) (by decide)) (congrArg condSelOfBits hsel)
  · simp [ignoredOf]

theorem branchExit_congr {v w : Word} (h : decodeWord v = decodeWord w) (hw : isBranchWord w = true) (cur : Word) :
    branchExit v cur = branchExit w cur := by
  rw [← branchExit_clear ((isBranchWord_congr h).trans hw), h, branchExit_clear hw]

/-- So words of one instruction are counted alike. -/
theorem count_congr {v w : Word} (h : decodeWord v = decodeWord w) (b : Builder) : b.count v = b.count w := by
  unfold Builder.count
  rw [isBranchWord_congr h]
  split
  · next hw => rw [branchExit_congr h hw]
  · rfl

/-! ### Invocations that read the same -/

/-- The two states have no difference that an invocation could read at `a`. -/
def SameWordAt (s s' : State) (a : Word) : Prop :=
  (s.fetch a).map decodeWord = (s'.fetch a).map decodeWord ∧ s.breakpointAt a = s'.breakpointAt a

/-- A turn at an address where two states read the same does the same in both, if the turns after it do. -/
theorem buildLoop_succ_congr {s s' : State} (hcfg : s.cfg = s'.cfg) {b : Builder} (hopen : b.phase = .opened)
    (hread : SameWordAt s s' b.cur) (fuel : Nat) (done : List (List Operation))
    (hrest : b.n + 1 < b.max → ∀ done', buildLoop s fuel { b with n := b.n + 1, cur := b.cur + 4#32 } done'
      = buildLoop s' fuel { b with n := b.n + 1, cur := b.cur + 4#32 } done') :
    buildLoop s (fuel + 1) b done = buildLoop s' (fuel + 1) b done := by
  obtain ⟨hword, hbreak⟩ := hread
  cases hb : s.breakpointAt b.cur
  · have hb' := hbreak.symm.trans hb
    cases hf : s.fetch b.cur with
    | none =>
      have hf' : s'.fetch b.cur = none := by simpa [hf] using hword.symm
      rw [buildLoop_of_unmapped fuel done hb hf, buildLoop_of_unmapped fuel done hb' hf']
    | some w =>
      obtain ⟨w', hf', hdecode⟩ : ∃ w', s'.fetch b.cur = some w' ∧ decodeWord w' = decodeWord w := by
        simpa [hf] using hword.symm
      have hemit : emit s'.cfg b.cur (decodeWord w') = emit s.cfg b.cur (decodeWord w) := by rw [hcfg, hdecode]
      cases he : emit s.cfg b.cur (decodeWord w) with
      | error signal =>
        rw [buildLoop_of_placeholder fuel done hb hf he, buildLoop_of_placeholder fuel done hb' hf' (hemit.trans he)]
      | ok ops =>
        have hemits : Emits s b.cur w ops := ⟨hb, hf, he⟩
        have hemits' : Emits s' b.cur w' ops := ⟨hb', hf', hemit.trans he⟩
        have hbranch := isBranchWord_congr hdecode
        rcases count_cases b w with ⟨hw, -⟩ | ⟨hw, hcap, -⟩ | ⟨hw, hcap, -⟩
        · rw [buildLoop_of_branch fuel done hemits hw, buildLoop_of_branch fuel done hemits' (hbranch.trans hw),
            count_congr hdecode]
        · rw [buildLoop_of_cap fuel done hemits hw hcap, buildLoop_of_cap fuel done hemits' (hbranch.trans hw) hcap,
            count_congr hdecode]
        · rw [buildLoop_of_goesOn fuel done hopen hemits hw hcap,
            buildLoop_of_goesOn fuel done hopen hemits' (hbranch.trans hw) hcap]
          exact hrest hcap _
  · rw [buildLoop_of_breakpoint fuel done hb, buildLoop_of_breakpoint fuel done (hbreak.symm.trans hb)]

/-- The whole loop, by induction on its turns: it stays below its bound, but for the first turn. -/
theorem buildLoop_congr {s s' : State} (hcfg : s.cfg = s'.cfg) {start : Word} {max : Nat}
    (hread : ∀ k, k < max ∨ k = 0 → SameWordAt s s' (unitAddr start k)) :
    ∀ (fuel n : Nat) (done : List (List Operation)), n < max ∨ n = 0 →
      buildLoop s fuel (midUnit start max n) done = buildLoop s' fuel (midUnit start max n) done
  | 0, _, _, _ => rfl
  | fuel + 1, n, done, hroom =>
    buildLoop_succ_congr hcfg rfl (hread n hroom) fuel done fun hlt done' => by
      have hnext := buildLoop_congr hcfg hread fuel (n + 1) done' (.inl hlt)
      rwa [midUnit_succ] at hnext

/-- The slots an invocation reads are below its cap and on its page. -/
theorem slot_on_page {cfg : Config} {start : Word} {cap k : Nat} (hcap : 1 ≤ cap)
    (h : k < min cap (slotsLeft cfg start) ∨ k = 0) :
    k < cap ∧ 4 * k < cfg.pageSize - start.toNat % cfg.pageSize := by
  have hpos : 0 < cfg.pageSize := Nat.mul_pos (by decide) (Nat.two_pow_pos _)
  have hlt : start.toNat % cfg.pageSize < cfg.pageSize := Nat.mod_lt _ hpos
  unfold slotsLeft at h
  omega

/-! ### Operations do not see the Builder -/

section SetBuilder

variable (s : State) (b : Builder)

theorem Expr.eval_setBuilder (m : Word) (e : Expr) : e.eval (s.setBuilder b) m = e.eval s m := by
  induction e with
  | lit | reg | high | packed | loaded => rfl
  | bin op x y hx hy => simp only [Expr.eval, hx, hy]; rfl

theorem FlagExpr.eval_setBuilder (m : Word) (e : FlagExpr) : e.eval (s.setBuilder b) m = e.eval s m := by
  cases e <;> simp only [FlagExpr.eval, Expr.eval_setBuilder]

/-- The accumulated state of a list of operations with another Builder. -/
def withBuilder (acc : State × Word) : State × Word := (acc.1.setBuilder b, acc.2)

theorem withBuilder_ite (g : Guard) (t t' : State) (m : Word) :
    (if g.holds (s.setBuilder b) then t.setBuilder b else t'.setBuilder b, m)
      = withBuilder b (if g.holds s then t else t', m) := by
  have hguard : g.holds (s.setBuilder b) = g.holds s := by cases g <;> rfl
  simp only [hguard, withBuilder]
  split <;> rfl

/-- One operation, evaluated and applied with another Builder. -/
theorem Operation.apply_setBuilder (op : Operation) (t : State) (m : Word) :
    op.apply (s.setBuilder b) (withBuilder b (t, m)) = mapNext (withBuilder b) (op.apply s (t, m)) := by
  cases op with
  | regWrite g r e =>
    simp only [Operation.apply, withBuilder, Expr.eval_setBuilder]
    cases e.eval s m with
    | error => rfl
    | ok d => exact congrArg _ (withBuilder_ite s b g (t.setReg r d) t m)
  | flagWrite g f e =>
    simp only [Operation.apply, withBuilder, FlagExpr.eval_setBuilder]
    cases e.eval s m with
    | error => rfl
    | ok v =>
      have hflag : (t.setBuilder b).setFlag f v = (t.setFlag f v).setBuilder b := by cases f <;> rfl
      simp only [raising, bindResult_next, hflag]
      exact congrArg _ (withBuilder_ite s b g (t.setFlag f v) t m)
  | highWrite e | transfer e =>
    simp only [Operation.apply, withBuilder, Expr.eval_setBuilder]
    cases e.eval s m <;> rfl
  | memRead width ea =>
    simp only [Operation.apply, withBuilder, Expr.eval_setBuilder]
    cases ea.eval s m with
    | error => rfl
    | ok a =>
      have hbyte : (s.setBuilder b).memReadByte a = s.memReadByte a := rfl
      have hword : (s.setBuilder b).memReadWord a = s.memReadWord a := rfl
      simp only [raising, bindResult_next, hbyte, hword]
      cases width
      · cases s.memReadByte a <;> rfl
      · cases s.memReadWord a <;> rfl
  | memWrite width ea e =>
    simp only [Operation.apply, withBuilder, Expr.eval_setBuilder]
    cases ea.eval s m with
    | error => rfl
    | ok a =>
      cases e.eval s m with
      | error => rfl
      | ok d =>
        have hbyte : (s.setBuilder b).memWriteByte a (field d 0 8) = s.memWriteByte a (field d 0 8) := rfl
        have hword : (s.setBuilder b).memWriteWord a d = s.memWriteWord a d := rfl
        simp only [raising, bindResult_next, hbyte, hword]
        cases width
        · cases s.memWriteByte a (field d 0 8) <;> rfl
        · cases s.memWriteWord a d <;> rfl
  | transferIf cc e otherwise =>
    simp only [Operation.apply, withBuilder, Expr.eval_setBuilder]
    cases e.eval s m with
    | error => rfl
    | ok a => cases otherwise.eval s m <;> rfl

theorem applyFrom_setBuilder (ops : List Operation) (t : State) (m : Word) :
    applyFrom (s.setBuilder b) ops (withBuilder b (t, m))
      = mapNext (fun u => u.setBuilder b) (applyFrom s ops (t, m)) := by
  induction ops generalizing t m with
  | nil => rfl
  | cons op ops ih =>
    simp only [applyFrom, Operation.apply_setBuilder, bindResult_mapNext, mapNext_bindResult, ih]

end SetBuilder

/-- Settles O53: the loop reads what the hypothesis gives it, and operations are blind to the Builder one by one. -/
theorem buildingIsRepeatable : Obligations.BuildingIsRepeatable := by
  refine ⟨fun s s' start cap hcap hcfg hread => ?_, fun ops s b => applyFrom_setBuilder s b ops s 0#32⟩
  rw [build_eq, build_eq, ← hcfg]
  refine congrArg answerOf (buildLoop_congr hcfg (fun k hk => ?_) _ 0 [] (.inr rfl))
  obtain ⟨hk, hpage⟩ := slot_on_page hcap hk
  exact hread k hk hpage

end Sys2Proof.Machine
end

section
/-! PROOFS. The error signals and the refusal (60_exceptions.md R260 to R268; 20_memory.md R66): which instruction can stop
with which, and with what in it. -/

namespace Sys2Proof.Machine

/-! ### The signals of each instruction -/

/-- The signed divides, which alone can overflow (41_regop_arith.md R155). -/
def SignedDivide (i : Instr) : Prop := ∃ a b c v imm, i = .divReg a b c ∨ i = .divImm a b v imm

/-- The divides, signed and unsigned (41_regop_arith.md R150, R151). -/
def Divide (i : Instr) : Prop :=
  ∃ a b c v imm, i = .divReg a b c ∨ i = .divImm a b v imm ∨ i = .udivReg a b c ∨ i = .udivImm a b v imm

/-- The table of 60_exceptions.md R265, read from the signal: what `i` is if it raises it in `s`, and what the signal holds.
A fetch fault is in no row: it is the step's. -/
def ListedSignal (i : Instr) (s : State) : Fault → Prop
  | .unsupportedOperation a0 => a0 = s.pc ∧ i ∈ floatingPointInstrs
  | .divideByZero a0 => a0 = s.pc ∧ Divide i
  | .divideOverflow a0 => a0 = s.pc ∧ s.cfg.divOverflow = .trap ∧ SignedDivide i
  | .memoryFault kind addr a0 => a0 = s.pc ∧ ∃ a b off, addr = s.ea b off
      ∧ (kind = .load ∧ (i = .ldw a b off ∨ i = .ldb a b off)
        ∨ kind = .store ∧ (i = .stw a b off ∨ i = .stb a b off))

/-- A divide faults exactly with its signal. -/
theorem divOp_eq_fault {uns : Bool} {a b : Reg} {cv : Word} {s : State} {g : Fault} :
    divOp uns a b cv s = .fault g ↔ divideSignal s.cfg.divOverflow uns (s.reg b) cv s.pc = some g := by
  rcases divOp_cases uns a b cv s with ⟨g', hg, e⟩ | ⟨hg, e⟩ <;> simp [hg, e]

theorem divOp_ne_refused {uns : Bool} {a b : Reg} {cv : Word} {s : State} {reason : Refusal} :
    divOp uns a b cv s ≠ .refused reason := by
  rcases divOp_cases uns a b cv s with ⟨_, _, e⟩ | ⟨_, e⟩ <;> rw [e] <;> nofun

section Instructions

variable {i : Instr} {uns : Bool} {a b : Reg} {cv : Word} {off : BitVec 20} {s : State} {g : Fault}

/-- A divide raises the two signals of the table, the overflow only when it is signed and under trap. -/
theorem listedSignal_of_divOp (h : divOp uns a b cv s = .fault g) (hdiv : Divide i)
    (hsigned : uns = false → SignedDivide i) : ListedSignal i s g := by
  rcases divideSignal_eq_some.mp (divOp_eq_fault.mp h) with ⟨_, rfl⟩ | ⟨_, ⟨huns, htrap, _⟩, rfl⟩
  · exact ⟨rfl, hdiv⟩
  · exact ⟨rfl, htrap, hsigned huns⟩

/-- A load raises the load fault, at its effective address. -/
theorem listedSignal_of_loadOp {value : Option Word} (hi : i = .ldw a b off ∨ i = .ldb a b off)
    (h : loadOp value a (s.ea b off) s = .fault g) : ListedSignal i s g := by
  obtain ⟨_, rfl⟩ := loadOp_eq_fault.mp h
  exact ⟨rfl, a, b, off, rfl, .inl ⟨rfl, hi⟩⟩

/-- A store raises the store fault, at its effective address. -/
theorem listedSignal_of_store (hi : i = .stw a b off ∨ i = .stb a b off)
    (hg : g = .memoryFault .store (s.ea b off) s.pc) : ListedSignal i s g := by
  subst hg
  exact ⟨rfl, a, b, off, rfl, .inr ⟨rfl, hi⟩⟩

/-- Every signal of an instruction stands in the table: the constructors the case split does not name always complete. -/
theorem listedSignal_of_exec_fault (h : exec i s = .fault g) : ListedSignal i s g := by
  cases i with
  | divReg | divImm => exact listedSignal_of_divOp h (by simp [Divide]) (by simp [SignedDivide])
  | udivReg | udivImm => exact listedSignal_of_divOp h (by simp [Divide]) nofun
  | fadReg | fadImm | fsbReg | fsbImm | fmlReg | fmlImm | fdvReg | fdvImm =>
    cases h
    exact ⟨rfl, by simp [floatingPointInstrs]⟩
  | ldw => exact listedSignal_of_loadOp (.inl rfl) h
  | ldb => exact listedSignal_of_loadOp (.inr rfl) h
  | stw => exact listedSignal_of_store (.inl rfl) (memWriteWord_eq_fault.mp (storeOp_eq_fault.mp h)).2
  | stb => exact listedSignal_of_store (.inr rfl) (memWriteByte_eq_fault.mp (storeOp_eq_fault.mp h)).2
  | _ => cases h

/-- Only a store is refused, at its effective address (20_memory.md R66; log 8). -/
theorem store_of_exec_refused {reason : Refusal} (h : exec i s = .refused reason) :
    ∃ a b off, reason = .storeToFetchMapping (s.ea b off) s.pc ∧ (i = .stw a b off ∨ i = .stb a b off) := by
  cases i with
  | divReg | divImm | udivReg | udivImm => exact absurd h divOp_ne_refused
  | ldw | ldb => exact absurd h loadOp_ne_refused
  | stw a b off => exact ⟨a, b, off, (memWriteWord_eq_refused.mp (storeOp_eq_refused.mp h)).2, .inl rfl⟩
  | stb a b off => exact ⟨a, b, off, (memWriteByte_eq_refused.mp (storeOp_eq_refused.mp h)).2, .inr rfl⟩
  | _ => cases h

end Instructions

/-- Settles O41: each clause is a row of the table, or the refusal of a store. -/
theorem onlyTheListedSignals : Obligations.OnlyTheListedSignals := fun _ _ =>
  ⟨fun _ h => listedSignal_of_exec_fault h, fun _ h => listedSignal_of_exec_fault h,
    fun _ h => listedSignal_of_exec_fault h, fun _ _ _ h => listedSignal_of_exec_fault h,
    fun _ h => store_of_exec_refused h⟩

end Sys2Proof.Machine
end

section
/-! PROOFS. The interrupt-enable bit `I` (60_exceptions.md R276; 10_state.md R28) and the register dump, which alone shows it
(60_exceptions.md R285). -/

namespace Sys2Proof.Machine

/-! ### What does not see `I` -/

/-- `s` with the interrupt-enable bit `v` (10_state.md R28). No operation of the model writes it. -/
def State.setI (s : State) (v : Bool) : State := { s with I := v }

section SetI

variable (s : State) (v : Bool)

theorem setI_reg (r : Reg) : (s.setI v).reg r = s.reg r := rfl

theorem setI_pc : (s.setI v).pc = s.pc := rfl

theorem setI_builder : (s.setI v).builder = s.builder := rfl

theorem setI_cfg : (s.setI v).cfg = s.cfg := rfl

theorem divOp_setI (uns : Bool) (a b : Reg) (cv : Word) :
    divOp uns a b cv (s.setI v) = mapNext (fun t => t.setI v) (divOp uns a b cv s) := by
  simp only [divOp, setI_reg, setI_pc, setI_cfg]
  cases divideSignal s.cfg.divOverflow uns (s.reg b) cv s.pc <;> rfl

theorem loadOp_setI (value : Option Word) (a : Reg) (ea : Word) :
    loadOp value a ea (s.setI v) = mapNext (fun t => t.setI v) (loadOp value a ea s) := by
  cases value <;> rfl

theorem storeOp_setI (written : Result Memory) :
    storeOp written (s.setI v) = mapNext (fun t => t.setI v) (storeOp written s) := by
  cases written <;> rfl

theorem branchOp_setI (link : Bool) (cc : Cond) (target : Word) :
    branchOp link cc target (s.setI v) = mapNext (fun t => t.setI v) (branchOp link cc target s) := by
  have htaken : (s.setI v).taken cc = s.taken cc := rfl
  simp only [branchOp_eq, htaken, setI_cfg]
  split <;> rfl

/-- No instruction sees `I`. Where no decision is taken both sides are the same writes; the constructors the case split does
not name are the branches. -/
theorem exec_setI (i : Instr) : exec i (s.setI v) = mapNext (fun t => t.setI v) (exec i s) := by
  cases i with
  | movReg | movH | movFlags | movImm | movhi | lslReg | lslImm | asrReg | asrImm | rorReg | rorImm | andReg | andImm
  | annReg | annImm | iorReg | iorImm | xorReg | xorImm | addReg | addImm | adcReg | adcImm | subReg | subImm | sbcReg
  | sbcImm | mulReg | mulImm | umulReg | umulImm => rfl
  | fadReg | fadImm | fsbReg | fsbImm | fmlReg | fmlImm | fdvReg | fdvImm => rfl
  | divReg | divImm | udivReg | udivImm => exact divOp_setI s v _ _ _ _
  | ldw | ldb => exact loadOp_setI s v _ _ _
  | stw | stb => exact storeOp_setI s v _
  | _ => exact branchOp_setI s v _ _ _

theorem returnUnit_setI : (s.setI v).returnUnit = s.returnUnit.setI v := by
  simp only [State.returnUnit, setI_builder]
  cases s.builder.phase <;> rfl

theorem openUnit_setI : (s.setI v).openUnit = s.openUnit.setI v := by
  simp only [State.openUnit, setI_builder, returnUnit_setI]
  cases s.builder.phase <;> rfl

theorem setBuilder_setI (b : Builder) : (s.setI v).setBuilder b = (s.setBuilder b).setI v := rfl

/-- Nor does a step, whether it meets a breakpoint, a fetch fault or an instruction. -/
theorem step_setI : step (s.setI v) = mapNext (fun t => t.setI v) (step s) := by
  cases hb : s.breakpointAt s.pc
  · cases hf : s.fetch s.pc with
    | none => rw [step_of_fetch_eq_none hb hf, step_of_fetch_eq_none (s := s.setI v) hb hf]; rfl
    | some w =>
      rw [step_of_word hb hf, step_of_word (s := s.setI v) hb hf]
      simp only [exec_setI, mapNext_mapNext, openUnit_setI, setI_builder, setBuilder_setI, returnUnit_setI]
  · rw [step_of_breakpoint hb, step_of_breakpoint (s := s.setI v) hb, openUnit_setI, setI_builder, setBuilder_setI,
      returnUnit_setI, mapNext_next]

end SetI

/-- Settles O32: steps and instructions carry `I` along, reset clears it, and it is the last flag of the dump. -/
theorem interruptEnableIsInert : Obligations.InterruptEnableIsInert :=
  ⟨State.launch_I, step_setI, fun i s v => exec_setI s v i, fun _ => rfl⟩

/-! ### The register dump -/

/-- A row of the dump is four registers from a multiple of 4 on. -/
theorem dump_row (s : State) (r : Fin 4) :
    s.dump.rows[r.val]? = some ((List.finRange 4).map fun k => s.reg (Fin.ofNat 16 (4 * r.val + k.val))) := by
  fin_cases r <;> rfl

/-- Settles O57: column `k` of row `r` is entry `k` of the row's four registers. -/
theorem registerDumpShowsTheState : Obligations.RegisterDumpShowsTheState := by
  refine fun s => ⟨fun r k => ?_, rfl, rfl, rfl⟩
  simp [dump_row]

end Sys2Proof.Machine
end
